-- ==== Sys2Proof/Word.lean ====
section
/-! DEFINITION. The word types of the mini_tools CORE (`10_state.md` R21 to R24, `20_memory.md` R55). -/

namespace Sys2Proof

/-- One byte of a buffer (R24, R50). -/
abbrev Byte := BitVec 8

/-- A command word or a control register (R30 to R37, R70). -/
abbrev Word32 := BitVec 32

/-- An integer register or a stored coordinate (R21, R22). -/
abbrev Word256 := BitVec 256

end Sys2Proof
end

