-- ==== Sys2Proof/Syntax.lean ====
section
/-! DEFINITION. The commands of CORE command set, version 1 (`30_encoding.md` R71, R72): one constructor per row of the
opcode table, operands in the order of the assembler syntax (R78). -/

namespace Sys2Proof

/-- Index of an integer register, `0 ≤ i < NR = 8` (R21, R71). -/
abbrev RIdx := Fin 8

/-- Index of a point register, `0 ≤ i < NP = 4` (R22, R71). -/
abbrev PIdx := Fin 4

/-- The 18 commands (R72). -/
inductive Instr where
  /-- `FADD rd, rs1, rs2` (R91). -/
  | fadd (rd rs1 rs2 : RIdx)
  /-- `FSUB rd, rs1, rs2` (R92). -/
  | fsub (rd rs1 rs2 : RIdx)
  /-- `FMUL rd, rs1, rs2` (R93). -/
  | fmul (rd rs1 rs2 : RIdx)
  /-- `FINV rd, rs1` (R96). -/
  | finv (rd rs1 : RIdx)
  /-- `PINF pd` (R118). -/
  | pinf (pd : PIdx)
  /-- `PBASE pd` (R119). -/
  | pbase (pd : PIdx)
  /-- `PSET pd, rs1, rs2` (R120). -/
  | pset (pd : PIdx) (rs1 rs2 : RIdx)
  /-- `ONCURVE rd, rs1, rs2` (R121). -/
  | oncurve (rd rs1 rs2 : RIdx)
  /-- `PNEG pd, ps1` (R122). -/
  | pneg (pd ps1 : PIdx)
  /-- `PADD pd, ps1, ps2` (R123). -/
  | padd (pd ps1 ps2 : PIdx)
  /-- `PDBL pd, ps1` (R124). -/
  | pdbl (pd ps1 : PIdx)
  /-- `SMUL pd, rs1, ps2` (R142). -/
  | smul (pd : PIdx) (rs1 : RIdx) (ps2 : PIdx)
  /-- `KEYGEN rd, pd` (R151). -/
  | keygen (rd : RIdx) (pd : PIdx)
  /-- `ECDH rs1, ps2` (R153). -/
  | ecdh (rs1 : RIdx) (ps2 : PIdx)
  /-- `ENCODE ps1, c` (R161): `c = true` is the compressed form. -/
  | encode (ps1 : PIdx) (c : Bool)
  /-- `DECODE pd` (R165). -/
  | decode (pd : PIdx)
  /-- `FSQRT rd, rs1` (R163). -/
  | fsqrt (rd rs1 : RIdx)
  /-- `HKDF` (R181). -/
  | hkdf
  deriving DecidableEq, Repr

end Sys2Proof
end

