-- ==== Sys2Proof/WellFormed.lean ====
section
/-! DEFINITION. When the fields of a command word form a command: the formats of `30_encoding.md` R71. This is the second
description the spec gives of the legal words, beside the match and mask table of R72 that `Decode.lean` follows. -/

namespace Sys2Proof

/-- The fields of a command word (R70), as they stand in it. -/
structure Fields where
  op : BitVec 8
  d : BitVec 4
  s1 : BitVec 4
  s2 : BitVec 4
  c : BitVec 1
  z : BitVec 11
  deriving DecidableEq, Repr

/-- What a format says of one 4-bit field (R71): an integer-register index, a point-register index, or zero. -/
inductive FieldUse where
  | r
  | p
  | zero
  deriving DecidableEq, Repr

/-- A row of the table of R71: what each field holds, and whether the `C` flag is used. -/
structure Format where
  d : FieldUse
  s1 : FieldUse
  s2 : FieldUse
  usesC : Bool
  deriving DecidableEq, Repr

/-- Legal values of a 4-bit field (R71): 0 to 7, 0 to 3, or 0. -/
def FieldUse.admits : FieldUse → BitVec 4 → Bool
  | .r, v => v.toNat < 8
  | .p, v => v.toNat < 4
  | .zero, v => v.toNat == 0

/-- The formats of R71. -/
def Format.rrr : Format := ⟨.r, .r, .r, false⟩
def Format.rr : Format := ⟨.r, .r, .zero, false⟩
def Format.pOnly : Format := ⟨.p, .zero, .zero, false⟩
def Format.prr : Format := ⟨.p, .r, .r, false⟩
def Format.pp : Format := ⟨.p, .p, .zero, false⟩
def Format.ppp : Format := ⟨.p, .p, .p, false⟩
def Format.prp : Format := ⟨.p, .r, .p, false⟩
def Format.rp : Format := ⟨.r, .p, .zero, false⟩
def Format.srp : Format := ⟨.zero, .r, .p, false⟩
def Format.ep : Format := ⟨.zero, .p, .zero, true⟩
def Format.none : Format := ⟨.zero, .zero, .zero, false⟩

/-- The format of each assigned opcode (R71, R72); an opcode outside the map is unassigned (R75). -/
def Format.ofOpcode (op : BitVec 8) : Option Format :=
  match op.toNat with
  | 0x01 => some .rrr
  | 0x02 => some .rrr
  | 0x03 => some .rrr
  | 0x04 => some .rr
  | 0x10 => some .pOnly
  | 0x11 => some .pOnly
  | 0x12 => some .prr
  | 0x13 => some .rrr
  | 0x14 => some .pp
  | 0x15 => some .ppp
  | 0x16 => some .pp
  | 0x20 => some .prp
  | 0x30 => some .rp
  | 0x31 => some .srp
  | 0x40 => some .ep
  | 0x41 => some .pOnly
  | 0x42 => some .rr
  | 0x50 => some .none
  | _ => Option.none

/-- The fields satisfy a format: each field is legal for its use, `C` is zero unless the format uses it, `Z` is zero
(R70, R71, R75). -/
def Fields.fits (f : Fields) (g : Format) : Bool :=
  g.d.admits f.d && g.s1.admits f.s1 && g.s2.admits f.s2 && (g.usesC || f.c == 0#1) && f.z == 0#11

/-- The fields form a command: the opcode is assigned and its format is satisfied (R71, R75). -/
def Fields.wellFormed (f : Fields) : Bool :=
  match Format.ofOpcode f.op with
  | some g => f.fits g
  | Option.none => false

/-- The fields of a command word (R70). -/
def Fields.ofWord (w : Word32) : Fields where
  op := w.extractLsb' 0 8
  d := w.extractLsb' 8 4
  s1 := w.extractLsb' 12 4
  s2 := w.extractLsb' 16 4
  c := w.extractLsb' 20 1
  z := w.extractLsb' 21 11

end Sys2Proof
end

