-- ==== Sys2Proof/Decode.lean ====
section
/-! DEFINITION. The decoder of command words (`30_encoding.md` R72, R73, R80), total and refusing by name, and the encoder,
both from the match and mask table and the field positions of R70. -/

namespace Sys2Proof

/-- Why a word is no command (R75). Both reasons raise `IllegalCommand`. -/
inductive DecodeError where
  /-- The `OP` field is not in the table. -/
  | unassignedOpcode
  /-- The opcode is assigned, but a bit under the row's mask is wrong: an index out of range, a field that must be zero,
  the `C` bit of a command that has none, or the `Z` field. -/
  | malformedFields
  deriving DecidableEq, Repr


/-- An operand that names an integer register: the three bits under its mask, at bit `lo` (R71, R80). -/
def rField (w : Word32) (lo : Nat) : RIdx := (w.extractLsb' lo 3).toFin

/-- An operand that names a point register: the two bits under its mask, at bit `lo` (R71, R80). -/
def pField (w : Word32) (lo : Nat) : PIdx := (w.extractLsb' lo 2).toFin

/-- The `C` flag, bit 20, used as is (R80). -/
def cFlag (w : Word32) : Bool := w.getLsbD 20

/-- A word is the command of a row exactly when `(w AND mask) = match` (R72). -/
def matchesRow (w pattern mask : Word32) : Bool := w &&& mask == pattern

/-- `i` if the word satisfies the row, a refusal by name otherwise. -/
def rowOr (w pattern mask : Word32) (i : Instr) : Except DecodeError Instr :=
  if matchesRow w pattern mask then .ok i else .error .malformedFields

/-- The decoder (R72, R73): the `OP` field selects the row, whose match and mask the whole word must satisfy. The name
`decodeWord` keeps it apart from the command `DECODE`. -/
def decodeWord (w : Word32) : Except DecodeError Instr :=
  match (w.extractLsb' 0 8).toNat with
  | 0x01 => rowOr w 0x00000001 0xFFF888FF (.fadd (rField w 8) (rField w 12) (rField w 16))
  | 0x02 => rowOr w 0x00000002 0xFFF888FF (.fsub (rField w 8) (rField w 12) (rField w 16))
  | 0x03 => rowOr w 0x00000003 0xFFF888FF (.fmul (rField w 8) (rField w 12) (rField w 16))
  | 0x04 => rowOr w 0x00000004 0xFFFF88FF (.finv (rField w 8) (rField w 12))
  | 0x10 => rowOr w 0x00000010 0xFFFFFCFF (.pinf (pField w 8))
  | 0x11 => rowOr w 0x00000011 0xFFFFFCFF (.pbase (pField w 8))
  | 0x12 => rowOr w 0x00000012 0xFFF88CFF (.pset (pField w 8) (rField w 12) (rField w 16))
  | 0x13 => rowOr w 0x00000013 0xFFF888FF (.oncurve (rField w 8) (rField w 12) (rField w 16))
  | 0x14 => rowOr w 0x00000014 0xFFFFCCFF (.pneg (pField w 8) (pField w 12))
  | 0x15 => rowOr w 0x00000015 0xFFFCCCFF (.padd (pField w 8) (pField w 12) (pField w 16))
  | 0x16 => rowOr w 0x00000016 0xFFFFCCFF (.pdbl (pField w 8) (pField w 12))
  | 0x20 => rowOr w 0x00000020 0xFFFC8CFF (.smul (pField w 8) (rField w 12) (pField w 16))
  | 0x30 => rowOr w 0x00000030 0xFFFFC8FF (.keygen (rField w 8) (pField w 12))
  | 0x31 => rowOr w 0x00000031 0xFFFC8FFF (.ecdh (rField w 12) (pField w 16))
  | 0x40 => rowOr w 0x00000040 0xFFEFCFFF (.encode (pField w 12) (cFlag w))
  | 0x41 => rowOr w 0x00000041 0xFFFFFCFF (.decode (pField w 8))
  | 0x42 => rowOr w 0x00000042 0xFFFF88FF (.fsqrt (rField w 8) (rField w 12))
  | 0x50 => rowOr w 0x00000050 0xFFFFFFFF .hkdf
  | _ => .error .unassignedOpcode

/-- The command word with the given fields and `Z = 0` (R70): `OP | D<<8 | S1<<12 | S2<<16 | C<<20`. -/
def assemble (op d s1 s2 c : Nat) : Word32 :=
  BitVec.ofNat 32 (op + d * 2 ^ 8 + s1 * 2 ^ 12 + s2 * 2 ^ 16 + c * 2 ^ 20)

/-- The encoder (R70 to R72): the word the assembler makes of a command (R78). -/
def encodeInstr : Instr → Word32
  | .fadd rd rs1 rs2 => assemble 0x01 rd rs1 rs2 0
  | .fsub rd rs1 rs2 => assemble 0x02 rd rs1 rs2 0
  | .fmul rd rs1 rs2 => assemble 0x03 rd rs1 rs2 0
  | .finv rd rs1 => assemble 0x04 rd rs1 0 0
  | .pinf pd => assemble 0x10 pd 0 0 0
  | .pbase pd => assemble 0x11 pd 0 0 0
  | .pset pd rs1 rs2 => assemble 0x12 pd rs1 rs2 0
  | .oncurve rd rs1 rs2 => assemble 0x13 rd rs1 rs2 0
  | .pneg pd ps1 => assemble 0x14 pd ps1 0 0
  | .padd pd ps1 ps2 => assemble 0x15 pd ps1 ps2 0
  | .pdbl pd ps1 => assemble 0x16 pd ps1 0 0
  | .smul pd rs1 ps2 => assemble 0x20 pd rs1 ps2 0
  | .keygen rd pd => assemble 0x30 rd pd 0 0
  | .ecdh rs1 ps2 => assemble 0x31 0 rs1 ps2 0
  | .encode ps1 c => assemble 0x40 0 ps1 0 c.toNat
  | .decode pd => assemble 0x41 pd 0 0 0
  | .fsqrt rd rs1 => assemble 0x42 rd rs1 0 0
  | .hkdf => assemble 0x50 0 0 0 0

/-- The command word whose low `nbits` bits are those of `w`, the rest zero. -/
def tableWord (nbits w : Nat) : Word32 := BitVec.ofNat 32 (w % 2 ^ nbits)

/-- The command the decoder reads from a word of the opcode table's numbering (bit 0 is the least significant bit of the
one command word, R9, R70). No command is longer than 32 bits (R70, R76). -/
def decodeTableWord (nbits w : Nat) : Option Instr :=
  if 32 < nbits then none
  else
    match decodeWord (tableWord nbits w) with
    | .ok i => some i
    | .error _ => none

end Sys2Proof
end

