-- ==== Sys2Proof/Config.lean ====
section
/-! DEFINITION. What an implementation of the CORE fixes (R6, R7, R43), and the free values: the external HMAC
primitive (R216), the answers of the random source (R217), and the inverse of 0, which has no value (R95, U1). -/

namespace Sys2Proof

/-- The curve record `(p, a, b, Gx, Gy, n)` of R7, a parameter of the step relation (R20, R43; `advance`): the curve is
`y² = x³ + a·x + b (mod p)`, the base point is `(gx, gy)`, its order is `n`. -/
structure Curve where
  p : Nat
  a : Nat
  b : Nat
  gx : Nat
  gy : Nat
  n : Nat
  deriving DecidableEq, Repr

/-- The constants of R7, the default of the parameter. PRESUMED: MT gives no digit of them (log entry 8). -/
def Config.curve : Curve where
  p := 0xFFFFFFFF00000001000000000000000000000000FFFFFFFFFFFFFFFFFFFFFFFF
  a := 0xFFFFFFFF00000001000000000000000000000000FFFFFFFFFFFFFFFFFFFFFFFC
  b := 0x5AC635D8AA3A93E7B3EBBD55769886BC651D06B0CC53B0F63BCE3C3E27D2604B
  gx := 0x6B17D1F2E12C4247F8BCE6E563A440F277037D812DEB33A0F4A13945D898C296
  gy := 0x4FE342E2FE1A7F9B8EE7EB4A7C0F9E162BCE33576B315ECECBB6406837BF51F5
  n := 0xFFFFFFFF00000000FFFFFFFFFFFFFFFFBCE6FAADA7179E84F3B9CAC2FC632551

/-- The capacities R6 and R43 take as parameters of the step relation, with the bounds R6 sets: every buffer access and
every check of a length takes them as an argument, and `advance` is the step for any of them. -/
structure Capacities where
  /-- `ENC_CAP`. -/
  enc : Nat
  /-- `IKM_CAP`. -/
  ikm : Nat
  /-- `SALT_CAP`. -/
  salt : Nat
  /-- `INFO_CAP`. -/
  info : Nat
  enc_ge : 65 ≤ enc
  ikm_ge : 32 ≤ ikm
  deriving DecidableEq, Repr

/-- The default of the parameter (R6; log entry 9). -/
def Config.capacities : Capacities where
  enc := 128
  ikm := 256
  salt := 256
  info := 256
  enc_ge := by decide
  ikm_ge := by decide

/-- `OKM_CAP = OKM_MAX = 255 · 32` (R6, R24). -/
abbrev Config.okmCap : Nat := 8160

/-- `ID` reads this word, the ASCII bytes "P256" (R28). -/
abbrev Config.idWord : Word32 := 0x50323536

/-- The external HMAC-SHA-256 primitive `hmac(key, message)` (R216): a total function of two byte strings with a
result of 32 bytes, of which nothing else is assumed (log entry 6). -/
opaque Config.hmac : List Byte → List Byte → Vector Byte 32

/-- What the external random source answers to the `i`-th draw (R217), before it is brought into `[1, n − 1]`: a free
value for every draw (log entry 5). -/
opaque Config.randomSource : Nat → Nat

/-- What the inverter would deliver for 0, where `f_inv` has no value (R95, U1): a free value. No well-formed point
makes the adder ask for it (R114; log entry 7). -/
opaque Config.inverseOfZero : Nat

end Sys2Proof
end

