-- ==== Sys2Proof/Machine/State.lean ====
section
/-! DEFINITION. The state of the CORE (`10_state.md`), as plain data, with the host's accesses to come and the answers it
got; the state after reset (R42); the reasons a step can stop. -/

namespace Sys2Proof.Machine

/-- A Point (R11): the point at infinity, or an affine pair. Stored in three fields (R22): `inf = 1, x = y = 0` for
infinity, else `inf = 0` and the two coordinates; the fields are views of this variant (log entry 15). -/
inductive Point where
  | inf
  | aff (x y : Word256)
  deriving DecidableEq, Repr

/-- The kinds of error (R201), without `None`, which is no error. -/
inductive ErrorKind where
  /-- Code 1, raised by `DECODE`. -/
  | invalidEncoding
  /-- Code 2, raised by `PSET` and `ECDH`. -/
  | pointNotOnCurve
  /-- Code 3, raised by `ENCODE` and `ECDH`. -/
  | infinityNotAllowed
  /-- Code 4, raised by `ECDH`. -/
  | degenerateSharedSecret
  /-- Code 5, raised by `HKDF`. -/
  | outputTooLong
  /-- Code 6, raised at decode. -/
  | illegalCommand
  /-- Code 7, raised by the commands with field operands. -/
  | operandRange
  /-- Code 8, raised by `FINV`. -/
  | inverseOfZero
  /-- Code 9, raised by `FSQRT`. -/
  | noSquareRoot
  /-- Code 10, raised by `HKDF`. -/
  | bufferLength
  /-- Code 255, raised by `KEYGEN`; sets `STATUS.FATAL` (R210). -/
  | internalInvariant
  deriving DecidableEq, Repr

/-- The five byte buffers (R24). -/
inductive Buf where
  | enc
  | ikm
  | salt
  | info
  | okm
  deriving DecidableEq, Repr

/-- The contents of a buffer: the bytes that differ from 0x00, with their offsets, offsets rising. A byte that is not
listed reads 0x00, the reset contents of every buffer (R42; log entry 12). -/
abbrev Memory := List Host.Cell

/-- What an offset that is not listed reads as (R42). -/
abbrev Memory.unlisted : Byte := 0

/-- The canonical form: offsets strictly rising, no listed byte equal to what an unlisted offset reads as. -/
abbrev Memory.wf (m : Memory) : Prop :=
  m.Pairwise (fun c d => c.1 < d.1) ∧ ∀ c ∈ m, c.2 ≠ Memory.unlisted

/-- The five operations of the host (R53). A select number is 8 bits wide (R26), an offset is any number (R58 says what
one beyond the capacity does). -/
inductive HostOp where
  | readReg (sel : BitVec 8)
  | writeReg (sel : BitVec 8) (v : Word256)
  | readBuf (sel : BitVec 8) (off : Nat)
  | writeBuf (sel : BitVec 8) (off : Nat) (v : Byte)
  | reset
  deriving DecidableEq, Repr

/-- One access the host will make. `whileBusy = true`: it is made at once, even while a command runs (R60).
`whileBusy = false`: the host has waited until `STATUS.BUSY` reads 0 (R240). Log entry 3. -/
structure HostAccess where
  op : HostOp
  whileBusy : Bool
  deriving DecidableEq, Repr

/-- What a read returned to the host: the value of a register, or a byte of a buffer (R53). -/
inductive HostAnswer where
  | reg (v : Word256)
  | byte (b : Byte)
  deriving DecidableEq, Repr

/-- The state: everything R20 lists, then the model's own three fields. -/
structure State where
  /-- `r[0..7]` (R21). -/
  r : Vector Word256 8
  /-- `pt[0..3]` (R22). -/
  pt : Vector Point 4
  /-- `ENC` (R24). -/
  enc : Memory
  /-- `IKM` (R24). -/
  ikm : Memory
  /-- `SALT` (R24). -/
  salt : Memory
  /-- `INFO` (R24). -/
  info : Memory
  /-- `OKM` (R24). -/
  okm : Memory
  /-- `ENC_LEN` (R32). -/
  encLen : Word32
  /-- `IKM_LEN` (R33). -/
  ikmLen : Word32
  /-- `SALT_LEN` (R34). -/
  saltLen : Word32
  /-- `INFO_LEN` (R35). -/
  infoLen : Word32
  /-- `OKM_REQ` (R36). -/
  okmReq : Word32
  /-- `OKM_LEN` (R37). -/
  okmLen : Word32
  /-- `STATUS.BUSY` (R30): `some w` while the command `w` runs, `none` while the CORE is idle. The word is hidden (R40). -/
  running : Option Word32
  /-- `STATUS.ERROR` (R30). -/
  error : Bool
  /-- `STATUS.FATAL` (R30, R210). -/
  fatal : Bool
  /-- `ERR.CODE` (R31, R201): `none` is code 0, `None`. -/
  err : Option ErrorKind
  /-- The model's own: the accesses the host has still to make, the next one first (log entry 1). -/
  hostIn : List HostAccess
  /-- The model's own: what the host's reads returned, the latest first (log entry 2). -/
  hostOut : List HostAnswer
  /-- The model's own: how many answers of the random source have been taken (R217; log entry 5). -/
  draws : Nat
  deriving DecidableEq, Repr

/-- The state after reset (R42), with no host access pending, none answered and no answer of the random source taken
(the last three are DESIGN CHOICE: log entries 1, 2 and 5). -/
def State.reset : State where
  r := Vector.replicate 8 0
  pt := Vector.replicate 4 .inf
  enc := []
  ikm := []
  salt := []
  info := []
  okm := []
  encLen := 0
  ikmLen := 0
  saltLen := 0
  infoLen := 0
  okmReq := 0
  okmLen := 0
  running := none
  error := false
  fatal := false
  err := none
  hostIn := []
  hostOut := []
  draws := 0

/-- Why the machine stops with a fault: never. Every error of the CORE is a next state (R205), every command ends (R249),
and a disallowed access does nothing (R58). The type is empty: nothing raises a fault. -/
inductive Fault where
  deriving DecidableEq, Repr

/-- Why an instruction has no meaning. -/
inductive Refusal where
  /-- Raised by `exec` for an instruction that has no meaning in the model, by name; safe. No arm raises it: every command
  of the table has its meaning. -/
  | notModelled (mnemonic : String)
  deriving DecidableEq, Repr

end Sys2Proof.Machine
end

