-- ==== Sys2Proof/Machine/Ops.lean ====
section
/-! DEFINITION. The named operations over numbers, byte strings, buffers and registers (`00_scope.md` R8 to R12), and the
end of a command: without an error, or by taking one (`60_exceptions.md` R205). -/

namespace Sys2Proof.Machine

/-! Numbers -/

/-- `bitlen(v)`, the least `L` with `v < 2^L` (R9). -/
def bitlen (v : Nat) : Nat := if v = 0 then 0 else Nat.log2 v + 1

/-- The loop of `modexp`: `acc · g^e mod m`, the bits of `e` from the least significant, at most `fuel` of them. -/
def modexpLoop (m : Nat) : Nat → Nat → Nat → Nat → Nat
  | 0, _, _, acc => acc
  | fuel + 1, g, e, acc =>
    modexpLoop m fuel (g * g % m) (e / 2) (if e % 2 = 1 then acc * g % m else acc)

/-- `modexp(g, e, m) = (g^e) mod m` (R8), by repeated squaring: how it is scheduled is not observable (R95, U17).
`modexp_eq` (Laws) proves it equal to `g ^ e % m`. -/
def modexp (g e m : Nat) : Nat := modexpLoop m (bitlen e) (g % m) e (1 % m)

/-! Byte strings -/

/-- `byte(v)` for `0 ≤ v ≤ 255` (R10). -/
def byteOf (v : Nat) : Byte := BitVec.ofNat 8 v

/-- `zeros(k)` (R10). -/
def zeros (k : Nat) : List Byte := List.replicate k 0

/-- `I2OSP32(v)`, big-endian: byte `i` is `v[255 − 8i : 248 − 8i]` (R10, R51). -/
def i2osp32 (v : Word256) : List Byte := (List.range 32).map fun i => v.extractLsb' (248 - 8 * i) 8

/-- `OS2IP(s)`, the big-endian integer of a byte string (R10). -/
def os2ip (s : List Byte) : Nat := s.foldl (fun acc b => acc * 256 + b.toNat) 0

/-! Buffers -/

/-- The byte at an offset; an unlisted one is 0x00 (R42; log entry 12). -/
def Memory.read : Memory → Nat → Byte
  | [], _ => Memory.unlisted
  | c :: rest, off => if c.1 = off then c.2 else Memory.read rest off

/-- The contents with one byte replaced, in canonical form again. -/
def Memory.write : Memory → Nat → Byte → Memory
  | [], off, v => if v = Memory.unlisted then [] else [(off, v)]
  | c :: rest, off, v =>
    if c.1 < off then c :: Memory.write rest off v
    else
      let tail := if c.1 = off then rest else c :: rest
      if v = Memory.unlisted then tail else (off, v) :: tail

/-- `MemRead(B, off, k)` (R12). -/
def memRead (m : Memory) (off : Nat) : Nat → List Byte
  | 0 => []
  | k + 1 => m.read off :: memRead m (off + 1) k

/-- `MemWrite(B, off, len(s), s)` (R12): other bytes keep their value. -/
def memWrite (m : Memory) (off : Nat) : List Byte → Memory
  | [] => m
  | v :: vs => memWrite (m.write off v) (off + 1) vs

/-- `B_CAP` (R6, R24), for given capacities. -/
def Buf.cap (k : Capacities) : Buf → Nat
  | .enc => k.enc
  | .ikm => k.ikm
  | .salt => k.salt
  | .info => k.info
  | .okm => Config.okmCap

/-- The contents of a buffer. -/
def State.buf (s : State) : Buf → Memory
  | .enc => s.enc
  | .ikm => s.ikm
  | .salt => s.salt
  | .info => s.info
  | .okm => s.okm

/-- The state with the contents of a buffer replaced. -/
def State.setBuf (s : State) (b : Buf) (m : Memory) : State :=
  match b with
  | .enc => { s with enc := m }
  | .ikm => { s with ikm := m }
  | .salt => { s with salt := m }
  | .info => { s with info := m }
  | .okm => { s with okm := m }

/-- `B_LEN`, the length register of a buffer (R24). -/
def State.bufLen (s : State) : Buf → Word32
  | .enc => s.encLen
  | .ikm => s.ikmLen
  | .salt => s.saltLen
  | .info => s.infoLen
  | .okm => s.okmLen

/-- The state with the length register of a buffer replaced. -/
def State.setBufLen (s : State) (b : Buf) (n : Word32) : State :=
  match b with
  | .enc => { s with encLen := n }
  | .ikm => { s with ikmLen := n }
  | .salt => { s with saltLen := n }
  | .info => { s with infoLen := n }
  | .okm => { s with okmLen := n }

/-- How a command delivers a byte string (R63): its bytes from offset 0 of the buffer, its length in the length register;
bytes beyond keep their value (D33). -/
def State.deliver (s : State) (b : Buf) (bytes : List Byte) : State :=
  (s.setBuf b (memWrite (s.buf b) 0 bytes)).setBufLen b (BitVec.ofNat 32 bytes.length)

/-! Registers -/

/-- `r[i]` (R12, R21). -/
def State.reg (s : State) (i : RIdx) : Word256 := s.r[i]

/-- `r[i] <- v` (R12). -/
def State.setReg (s : State) (i : RIdx) (v : Word256) : State := { s with r := s.r.set i v }

/-- `pt[i]` (R12, R22). -/
def State.point (s : State) (i : PIdx) : Point := s.pt[i]

/-- `pt[i] <- P` (R12). -/
def State.setPoint (s : State) (i : PIdx) (P : Point) : State := { s with pt := s.pt.set i P }

/-! The end of a command -/

/-- `code(<Error>)` (R201). -/
def ErrorKind.code : ErrorKind → Byte
  | .invalidEncoding => 1
  | .pointNotOnCurve => 2
  | .infinityNotAllowed => 3
  | .degenerateSharedSecret => 4
  | .outputTooLong => 5
  | .illegalCommand => 6
  | .operandRange => 7
  | .inverseOfZero => 8
  | .noSquareRoot => 9
  | .bufferLength => 10
  | .internalInvariant => 255

/-- The kinds whose error sets `STATUS.FATAL` (R205, R210). -/
def ErrorKind.isFatal : ErrorKind → Bool
  | .internalInvariant => true
  | .invalidEncoding => false
  | .pointNotOnCurve => false
  | .infinityNotAllowed => false
  | .degenerateSharedSecret => false
  | .outputTooLong => false
  | .illegalCommand => false
  | .operandRange => false
  | .inverseOfZero => false
  | .noSquareRoot => false
  | .bufferLength => false

/-- What `raise <Error>` does, the CORE's taking of an exception (R205): `STATUS.ERROR <- 1`, `ERR.CODE <- code`, for
`InternalInvariant` also `STATUS.FATAL <- 1`, and `STATUS.BUSY <- 0`; nothing else changes. -/
def State.raise (s : State) (e : ErrorKind) : State :=
  { s with running := none, error := true, err := some e, fatal := s.fatal || e.isFatal }

/-- The end of a command without an error (R205): `STATUS.ERROR <- 0`, `ERR.CODE <- 0`, `STATUS.BUSY <- 0`. There is no
return from an error (R208): this, or the next error, is what overwrites one. -/
def State.endOk (s : State) : State := { s with running := none, error := false, err := none }

/-- A command computes either the state with its destinations written, or an error; its end makes all its writes visible
together (R59), or, on an error, none of them (R205, R206). -/
def endCommand (s : State) (result : Except ErrorKind State) : Host.Outcome State Fault Refusal :=
  .next <|
    match result with
    | .ok t => t.endOk
    | .error e => s.raise e

end Sys2Proof.Machine
end

