-- ==== Sys2Proof/Machine/Operands.lean ====
section
/-! DEFINITION. The operand forms of the commands (`30_encoding.md` R71, R80; `40_field.md` R90): a field element, two field
elements, a scalar, a point, the value of a buffer. -/

namespace Sys2Proof.Machine

/-- A field-element operand: the register's value, which must be below the `p` of the curve (R90). -/
def fieldOperand (c : Curve) (s : State) (rs : RIdx) : Except ErrorKind Nat :=
  if c.p ≤ (s.reg rs).toNat then .error .operandRange else .ok (s.reg rs).toNat

/-- Two field-element operands: either one at or above `p` is `OperandRange` (R90). -/
def fieldOperands (c : Curve) (s : State) (rs1 rs2 : RIdx) : Except ErrorKind (Nat × Nat) :=
  if c.p ≤ (s.reg rs1).toNat ∨ c.p ≤ (s.reg rs2).toNat then .error .operandRange
  else .ok ((s.reg rs1).toNat, (s.reg rs2).toNat)

/-- A scalar operand: any 256-bit value, no range check (R90, R142, R153). -/
def scalarOperand (s : State) (rs : RIdx) : Nat := (s.reg rs).toNat

/-- A point operand: the register's value, which is always well-formed (R23). -/
def pointOperand (s : State) (ps : PIdx) : Point := s.point ps

/-- `val(B)`, the value of a buffer, undefined when its length register exceeds its capacity (R25). -/
def bufferValue (k : Capacities) (s : State) (b : Buf) : Option (List Byte) :=
  if (s.bufLen b).toNat ≤ b.cap k then some (memRead (s.buf b) 0 (s.bufLen b).toNat) else none

end Sys2Proof.Machine
end

