-- ==== Sys2Proof/Machine/FieldUnit.lean ====
section
/-! DEFINITION. The field unit (`40_field.md`): residues, the inverse by exponentiation, and the commands `FADD`, `FSUB`,
`FMUL`, `FINV`. There is no Montgomery domain (R94). -/

namespace Sys2Proof.Machine

/-- `v mod p`, the non-negative residue of an exact integer (R8). -/
def residue (c : Curve) (v : Int) : Nat := (v % (c.p : Int)).toNat

/-- A residue as a 256-bit register value. -/
def fieldWord (c : Curve) (v : Int) : Word256 := BitVec.ofNat 256 (residue c v)

/-- `f_inv(x) = modexp(x, p − 2, p)` for `x ≠ 0` (R95). It has no value at 0 (U1): there it is the free value of Config,
brought into `[0, p)` (log entry 7). -/
def fInv (c : Curve) (x : Nat) : Nat :=
  if x = 0 then Config.inverseOfZero % c.p else modexp x (c.p - 2) c.p

/-- `FADD rd, rs1, rs2` (R91), on a given curve. -/
def faddCommand (c : Curve) (rd rs1 rs2 : RIdx) (s : State) : Host.Outcome State Fault Refusal :=
  endCommand s <|
    match fieldOperands c s rs1 rs2 with
    | .error e => .error e
    | .ok (x, y) => .ok (s.setReg rd (fieldWord c (x + y)))

/-- `FADD` on the default curve (log entry 9). -/
def execFadd (rd rs1 rs2 : RIdx) (s : State) : Host.Outcome State Fault Refusal :=
  faddCommand Config.curve rd rs1 rs2 s

/-- `FSUB rd, rs1, rs2` (R92), on a given curve. -/
def fsubCommand (c : Curve) (rd rs1 rs2 : RIdx) (s : State) : Host.Outcome State Fault Refusal :=
  endCommand s <|
    match fieldOperands c s rs1 rs2 with
    | .error e => .error e
    | .ok (x, y) => .ok (s.setReg rd (fieldWord c (x - y)))

/-- `FSUB` on the default curve (log entry 9). -/
def execFsub (rd rs1 rs2 : RIdx) (s : State) : Host.Outcome State Fault Refusal :=
  fsubCommand Config.curve rd rs1 rs2 s

/-- `FMUL rd, rs1, rs2` (R93), on a given curve. -/
def fmulCommand (c : Curve) (rd rs1 rs2 : RIdx) (s : State) : Host.Outcome State Fault Refusal :=
  endCommand s <|
    match fieldOperands c s rs1 rs2 with
    | .error e => .error e
    | .ok (x, y) => .ok (s.setReg rd (fieldWord c (x * y)))

/-- `FMUL` on the default curve (log entry 9). -/
def execFmul (rd rs1 rs2 : RIdx) (s : State) : Host.Outcome State Fault Refusal :=
  fmulCommand Config.curve rd rs1 rs2 s

/-- `FINV rd, rs1` (R96), on a given curve: the range check, then the zero check, then `f_inv`. -/
def finvCommand (c : Curve) (rd rs1 : RIdx) (s : State) : Host.Outcome State Fault Refusal :=
  endCommand s <|
    match fieldOperand c s rs1 with
    | .error e => .error e
    | .ok x =>
      if x = 0 then .error .inverseOfZero
      else .ok (s.setReg rd (fieldWord c (fInv c x)))

/-- `FINV` on the default curve (log entry 9). -/
def execFinv (rd rs1 : RIdx) (s : State) : Host.Outcome State Fault Refusal :=
  finvCommand Config.curve rd rs1 s

end Sys2Proof.Machine
end

