-- ==== Sys2Proof/Machine/PointUnit.lean ====
section
/-! DEFINITION. The point unit (`41_point.md`): the curve-membership test, the negator, the adder and the doubler as
functions of Points, and the commands `PINF`, `PBASE`, `PSET`, `ONCURVE`, `PNEG`, `PADD`, `PDBL`. The functions follow the
spec's formulas on every pair; the spec gives them a meaning on well-formed Points only (R110, U3; log entry 7). -/

namespace Sys2Proof.Machine

/-- `y² − x³ − a·x − b ≡ 0 (mod p)`, evaluated on exact integers (R111). -/
def onCurveXY (c : Curve) (x y : Nat) : Bool :=
  residue c ((y : Int) * y - x * x * x - c.a * x - c.b) == 0

/-- `is_on_curve(P)` (R111). -/
def isOnCurve (c : Curve) : Point → Bool
  | .inf => true
  | .aff x y => onCurveXY c x.toNat y.toNat

/-- A well-formed Point (R11, R23): infinity, or field elements that satisfy the curve equation. -/
def Point.wf (c : Curve) : Point → Bool
  | .inf => true
  | .aff x y => x.toNat < c.p && y.toNat < c.p && onCurveXY c x.toNat y.toNat

/-- The affine point of two residues. -/
def affine (c : Curve) (x y : Int) : Point := .aff (fieldWord c x) (fieldWord c y)

/-- The base point `G` (R7, R11). -/
def basePoint (c : Curve) : Point := .aff (BitVec.ofNat 256 c.gx) (BitVec.ofNat 256 c.gy)

/-- `pt_neg(P)` (R112); with `ptAdd` it has the group laws of R125 (`GroupLaws`, Safety). -/
def ptNeg (c : Curve) : Point → Point
  | .inf => .inf
  | .aff x y => .aff x (fieldWord c (0 - (y.toNat : Int)))

/-- The slope of the tangent at `(x, y)`: `(3x² + a) · (2y)⁻¹ mod p` (R113 case 4, R115). -/
def tangentSlope (c : Curve) (x y : Int) : Int :=
  residue c ((3 * x * x + c.a) * fInv c (residue c (2 * y)))

/-- The slope of the chord through two points: `(y2 − y1) · (x2 − x1)⁻¹ mod p` (R113 case 5). -/
def chordSlope (c : Curve) (x1 y1 x2 y2 : Int) : Int :=
  residue c ((y2 - y1) * fInv c (residue c (x2 - x1)))

/-- The third point of a line of slope `m` through points of abscissas `x1` and `x2`, negated:
`x3 = m² − x1 − x2`, `y3 = m·(x1 − x3) − y1` (R113). -/
def thirdPoint (c : Curve) (m x1 y1 x2 : Int) : Point :=
  let x3 : Int := residue c (m * m - x1 - x2)
  affine c x3 (m * (x1 - x3) - y1)

/-- `pt_add(P1, P2)`, the five cases in the order of R113; its laws on well-formed Points are R125's (`GroupLaws`, Safety). -/
def ptAdd (c : Curve) (P1 P2 : Point) : Point :=
  match P1, P2 with
  | .inf, _ => P2
  | .aff _ _, .inf => P1
  | .aff x1 y1, .aff x2 y2 =>
    if x1 = x2 ∧ (y1.toNat + y2.toNat) % c.p = 0 then .inf
    else if x1 = x2 ∧ y1 = y2 then
      thirdPoint c (tangentSlope c x1.toNat y1.toNat) x1.toNat y1.toNat x2.toNat
    else
      thirdPoint c (chordSlope c x1.toNat y1.toNat x2.toNat y2.toNat) x1.toNat y1.toNat x2.toNat

/-- `pt_dbl(P)` (R115). -/
def ptDbl (c : Curve) (P : Point) : Point :=
  match P with
  | .inf => .inf
  | .aff x y =>
    if y.toNat % c.p = 0 then .inf
    else thirdPoint c (tangentSlope c x.toNat y.toNat) x.toNat y.toNat x.toNat

/-- `PINF pd` (R118). -/
def execPinf (pd : PIdx) (s : State) : Host.Outcome State Fault Refusal :=
  endCommand s (.ok (s.setPoint pd .inf))

/-- `PBASE pd` (R119), on a given curve. -/
def pbaseCommand (c : Curve) (pd : PIdx) (s : State) : Host.Outcome State Fault Refusal :=
  endCommand s (.ok (s.setPoint pd (basePoint c)))

/-- `PBASE` on the default curve (log entry 9). -/
def execPbase (pd : PIdx) (s : State) : Host.Outcome State Fault Refusal :=
  pbaseCommand Config.curve pd s

/-- `PSET pd, rs1, rs2` (R120), on a given curve: the range check, then the curve equation. -/
def psetCommand (c : Curve) (pd : PIdx) (rs1 rs2 : RIdx) (s : State) : Host.Outcome State Fault Refusal :=
  endCommand s <|
    match fieldOperands c s rs1 rs2 with
    | .error e => .error e
    | .ok (x, y) =>
      if onCurveXY c x y then .ok (s.setPoint pd (.aff (s.reg rs1) (s.reg rs2)))
      else .error .pointNotOnCurve

/-- `PSET` on the default curve (log entry 9). -/
def execPset (pd : PIdx) (rs1 rs2 : RIdx) (s : State) : Host.Outcome State Fault Refusal :=
  psetCommand Config.curve pd rs1 rs2 s

/-- `ONCURVE rd, rs1, rs2` (R121), on a given curve: a false answer is a result, not an error. -/
def oncurveCommand (c : Curve) (rd rs1 rs2 : RIdx) (s : State) : Host.Outcome State Fault Refusal :=
  endCommand s <|
    match fieldOperands c s rs1 rs2 with
    | .error e => .error e
    | .ok (x, y) => .ok (s.setReg rd (if onCurveXY c x y then 1 else 0))

/-- `ONCURVE` on the default curve (log entry 9). -/
def execOncurve (rd rs1 rs2 : RIdx) (s : State) : Host.Outcome State Fault Refusal :=
  oncurveCommand Config.curve rd rs1 rs2 s

/-- `PNEG pd, ps1` (R122), on a given curve. -/
def pnegCommand (c : Curve) (pd ps1 : PIdx) (s : State) : Host.Outcome State Fault Refusal :=
  endCommand s (.ok (s.setPoint pd (ptNeg c (pointOperand s ps1))))

/-- `PNEG` on the default curve (log entry 9). -/
def execPneg (pd ps1 : PIdx) (s : State) : Host.Outcome State Fault Refusal :=
  pnegCommand Config.curve pd ps1 s

/-- `PADD pd, ps1, ps2` (R123), on a given curve. -/
def paddCommand (c : Curve) (pd ps1 ps2 : PIdx) (s : State) : Host.Outcome State Fault Refusal :=
  endCommand s (.ok (s.setPoint pd (ptAdd c (pointOperand s ps1) (pointOperand s ps2))))

/-- `PADD` on the default curve (log entry 9). -/
def execPadd (pd ps1 ps2 : PIdx) (s : State) : Host.Outcome State Fault Refusal :=
  paddCommand Config.curve pd ps1 ps2 s

/-- `PDBL pd, ps1` (R124), on a given curve. -/
def pdblCommand (c : Curve) (pd ps1 : PIdx) (s : State) : Host.Outcome State Fault Refusal :=
  endCommand s (.ok (s.setPoint pd (ptDbl c (pointOperand s ps1))))

/-- `PDBL` on the default curve (log entry 9). -/
def execPdbl (pd ps1 : PIdx) (s : State) : Host.Outcome State Fault Refusal :=
  pdblCommand Config.curve pd ps1 s

end Sys2Proof.Machine
end

