-- ==== Sys2Proof/Machine/Codec.lean ====
section
/-! DEFINITION. The SEC1 point codec with modular square root (`44_codec.md`): `ENCODE`, `DECODE`, `FSQRT`. -/

namespace Sys2Proof.Machine

/-- `encode(P, compressed)` (R160). -/
def encodePoint (P : Point) (compressed : Bool) : Except ErrorKind (List Byte) :=
  match P with
  | .inf => .error .infinityNotAllowed
  | .aff x y =>
    if compressed then .ok (byteOf (0x02 + y.toNat % 2) :: i2osp32 x)
    else .ok (byteOf 0x04 :: (i2osp32 x ++ i2osp32 y))

/-- `modular_sqrt(v)` (R162): 0 for 0; no root unless the Legendre symbol is 1; else `v^((p+1)/4) mod p`. -/
def modularSqrt (c : Curve) (v : Nat) : Option Nat :=
  if v = 0 then some 0
  else if modexp v ((c.p - 1) / 2) c.p ≠ 1 then none
  else some (modexp v ((c.p + 1) / 4) c.p)

/-- The pair of field elements as a point, if both are in range and the pair is on the curve (R164). -/
def checkedPoint (c : Curve) (x y : Nat) : Except ErrorKind Point :=
  if c.p ≤ x ∨ c.p ≤ y then .error .invalidEncoding
  else if onCurveXY c x y then .ok (.aff (BitVec.ofNat 256 x) (BitVec.ofNat 256 y))
  else .error .invalidEncoding

/-- `decode(s)` for the uncompressed form, given `X` and `Y` (R164, first arm). -/
def decodeUncompressed (c : Curve) (x y : Nat) : Except ErrorKind Point := checkedPoint c x y

/-- `decode(s)` for the compressed form, given `X` and the parity the prefix asks for (R164, second arm): the square root
of `X³ + a·X + b`, replaced by `p − y` if its parity is the other one. -/
def decodeCompressed (c : Curve) (x parity : Nat) : Except ErrorKind Point :=
  if c.p ≤ x then .error .invalidEncoding
  else
    match modularSqrt c (residue c ((x : Int) * x * x + c.a * x + c.b)) with
    | none => .error .invalidEncoding
    | some t => checkedPoint c x (if t % 2 = parity then t else c.p - t)

/-- `decode(s)` (R164): dispatch on length and leading byte. -/
def decodePoint (c : Curve) (s : List Byte) : Except ErrorKind Point :=
  match s with
  | [] => .error .invalidEncoding
  | lead :: body =>
    if s.length = 65 ∧ lead = 0x04 then
      decodeUncompressed c (os2ip (body.take 32)) (os2ip (body.drop 32))
    else if s.length = 33 ∧ (lead = 0x02 ∨ lead = 0x03) then
      decodeCompressed c (os2ip body) (lead.toNat - 0x02)
    else .error .invalidEncoding

/-- `ENCODE ps1, c` (R161). -/
def execEncode (ps1 : PIdx) (compressed : Bool) (s : State) : Host.Outcome State Fault Refusal :=
  endCommand s <|
    match encodePoint (pointOperand s ps1) compressed with
    | .error e => .error e
    | .ok bytes => .ok (s.deliver .enc bytes)

/-- `DECODE pd` (R165), on a given curve: a length other than 33 and 65 is refused before `ENC` is read. -/
def decodeCommand (c : Curve) (pd : PIdx) (s : State) : Host.Outcome State Fault Refusal :=
  endCommand s <|
    if s.encLen.toNat ≠ 33 ∧ s.encLen.toNat ≠ 65 then .error .invalidEncoding
    else
      match decodePoint c (memRead s.enc 0 s.encLen.toNat) with
      | .error e => .error e
      | .ok P => .ok (s.setPoint pd P)

/-- `DECODE` on the default curve (log entry 9). -/
def execDecode (pd : PIdx) (s : State) : Host.Outcome State Fault Refusal :=
  decodeCommand Config.curve pd s

/-- `FSQRT rd, rs1` (R163), on a given curve. -/
def fsqrtCommand (c : Curve) (rd rs1 : RIdx) (s : State) : Host.Outcome State Fault Refusal :=
  endCommand s <|
    match fieldOperand c s rs1 with
    | .error e => .error e
    | .ok v =>
      match modularSqrt c v with
      | none => .error .noSquareRoot
      | some t => .ok (s.setReg rd (fieldWord c t))

/-- `FSQRT` on the default curve (log entry 9). -/
def execFsqrt (rd rs1 : RIdx) (s : State) : Host.Outcome State Fault Refusal :=
  fsqrtCommand Config.curve rd rs1 s

end Sys2Proof.Machine
end

