-- ==== Sys2Proof/Machine/Kdf.lean ====
section
/-! DEFINITION. The HMAC-SHA256 KDF combiner (`45_kdf.md`): HKDF over the external HMAC primitive, and the command `HKDF`.
The functions take the primitive as an argument, so that a claim can hold for every one (R182, U10). -/

namespace Sys2Proof.Machine

/-- The HMAC primitive's contract, `hmac(key, message) -> bytes[32]` (R216). -/
abbrev Hmac := List Byte → List Byte → Vector Byte 32

/-- Extract (R180): an empty salt is replaced by 32 zero bytes; the salt is the key. -/
def hkdfExtract (hmac : Hmac) (salt ikm : List Byte) : List Byte :=
  (hmac (if salt.length = 0 then zeros 32 else salt) ikm).toList

/-- Expand (R180): `blocks` blocks from counter `i` on, `t[i] = hmac(prk, t[i−1] ∥ info ∥ byte(i))`, where `prev` is
`t[i−1]`. -/
def hkdfExpand (hmac : Hmac) (prk info : List Byte) : (blocks i : Nat) → (prev : List Byte) → List Byte
  | 0, _, _ => []
  | blocks + 1, i, prev =>
    let t := (hmac prk (prev ++ info ++ [byteOf i])).toList
    t ++ hkdfExpand hmac prk info blocks (i + 1) t

/-- `hkdf(ikm, salt, info, L)` (R180): `ceil(L / 32)` blocks from counter 1 and the empty string, cut to `L` bytes. -/
def hkdf (hmac : Hmac) (ikm salt info : List Byte) (L : Nat) : Except ErrorKind (List Byte) :=
  if 255 * 32 < L then .error .outputTooLong
  else .ok ((hkdfExpand hmac (hkdfExtract hmac salt ikm) info ((L + 31) / 32) 1 []).take L)

/-- The result of `HKDF` for a given primitive and given capacities (R181): the three buffer lengths, then the output length, then the
derivation of `OKM_REQ` bytes into `OKM`. -/
def hkdfResult (hmac : Hmac) (k : Capacities) (s : State) : Except ErrorKind State :=
  match bufferValue k s .ikm, bufferValue k s .salt, bufferValue k s .info with
  | some ikm, some salt, some info =>
    match hkdf hmac ikm salt info s.okmReq.toNat with
    | .error e => .error e
    | .ok bytes => .ok (s.deliver .okm bytes)
  | _, _, _ => .error .bufferLength

/-- `HKDF` (R181) with the external primitive of Config, for given capacities. -/
def hkdfCommand (k : Capacities) (s : State) : Host.Outcome State Fault Refusal :=
  endCommand s (hkdfResult Config.hmac k s)

/-- `HKDF` (R181), for the default capacities. -/
def execHkdf (s : State) : Host.Outcome State Fault Refusal := hkdfCommand Config.capacities s

end Sys2Proof.Machine
end

