-- ==== Sys2Proof/Machine/ScalarUnit.lean ====
section
/-! DEFINITION. The Montgomery-ladder scalar multiplier (`42_scalar_mult.md`) and the command `SMUL`. -/

namespace Sys2Proof.Machine

/-- One iteration of the ladder on the pair `(R0, R1)` (R140): for bit 0, `R1 ← R0 + R1`, `R0 ← 2·R0`; for bit 1,
`R0 ← R0 + R1`, `R1 ← 2·R1`; both arms use the values from before the iteration. -/
def ladderStep (c : Curve) (bit : Bool) (rr : Point × Point) : Point × Point :=
  if bit then (ptAdd c rr.1 rr.2, ptDbl c rr.2) else (ptDbl c rr.1, ptAdd c rr.1 rr.2)

/-- The iterations for the bits `i − 1` down to 0 of `k` (R140). -/
def ladder (c : Curve) (k : Nat) : Nat → Point × Point → Point × Point
  | 0, rr => rr
  | i + 1, rr => ladder c k i (ladderStep c (k.testBit i) rr)

/-- `scalar_mult(k, P)` (R140): reduction mod `n`, the early return for 0, then `bitlen` iterations from `(∞, P)`. -/
def scalarMult (c : Curve) (k : Nat) (P : Point) : Point :=
  if k % c.n = 0 then .inf else (ladder c (k % c.n) (bitlen (k % c.n)) (.inf, P)).1

/-- `SMUL pd, rs1, ps2` (R142), on a given curve. -/
def smulCommand (c : Curve) (pd : PIdx) (rs1 : RIdx) (ps2 : PIdx) (s : State) : Host.Outcome State Fault Refusal :=
  endCommand s (.ok (s.setPoint pd (scalarMult c (scalarOperand s rs1) (pointOperand s ps2))))

/-- `SMUL` on the default curve (log entry 9). -/
def execSmul (pd : PIdx) (rs1 : RIdx) (ps2 : PIdx) (s : State) : Host.Outcome State Fault Refusal :=
  smulCommand Config.curve pd rs1 ps2 s

end Sys2Proof.Machine
end

