-- ==== Sys2Proof/Machine/KeyAgreement.lean ====
section
/-! DEFINITION. The key-agreement sequencer (`43_key_agreement.md`): `KEYGEN` and `ECDH`. -/

namespace Sys2Proof.Machine

/-- `draw({1, …, n − 1})`, the `i`-th answer of the random source (R12, R217): a free value of `[1, n − 1]`, every one of
which is possible (log entry 5). -/
def drawScalar (c : Curve) (i : Nat) : Nat := 1 + Config.randomSource i % (c.n - 1)

/-- `KEYGEN` for a given draw `d` (R151): both destinations are written, or neither. -/
def keygenResult (c : Curve) (d : Nat) (rd : RIdx) (pd : PIdx) (s : State) : Except ErrorKind State :=
  let Q := scalarMult c d (basePoint c)
  if Q = .inf ∨ isOnCurve c Q = false then .error .internalInvariant
  else .ok ((s.setReg rd (BitVec.ofNat 256 d)).setPoint pd Q)

/-- The state once one more answer of the random source has been taken (R209: `KEYGEN` draws exactly once). -/
def State.afterDraw (s : State) : State := { s with draws := s.draws + 1 }

/-- `KEYGEN rd, pd` (R151), on a given curve. -/
def keygenCommand (c : Curve) (rd : RIdx) (pd : PIdx) (s : State) : Host.Outcome State Fault Refusal :=
  endCommand s.afterDraw (keygenResult c (drawScalar c s.draws) rd pd s.afterDraw)

/-- `KEYGEN` on the default curve (log entry 9). -/
def execKeygen (rd : RIdx) (pd : PIdx) (s : State) : Host.Outcome State Fault Refusal :=
  keygenCommand Config.curve rd pd s

/-- The shared point's x-coordinate as 32 big-endian bytes, `compute_shared_secret` (R152), with the checks in the order
of R153. -/
def sharedSecret (c : Curve) (k : Nat) (Q : Point) : Except ErrorKind (List Byte) :=
  if Q = .inf then .error .infinityNotAllowed
  else if isOnCurve c Q = false then .error .pointNotOnCurve
  else
    match scalarMult c k Q with
    | .inf => .error .degenerateSharedSecret
    | .aff x _ => .ok (i2osp32 x)

/-- `ECDH rs1, ps2` (R153), on a given curve: the secret into `IKM[0..31]`, `IKM_LEN <- 32`. -/
def ecdhCommand (c : Curve) (rs1 : RIdx) (ps2 : PIdx) (s : State) : Host.Outcome State Fault Refusal :=
  endCommand s <|
    match sharedSecret c (scalarOperand s rs1) (pointOperand s ps2) with
    | .error e => .error e
    | .ok bytes => .ok (s.deliver .ikm bytes)

/-- `ECDH` on the default curve (log entry 9). -/
def execEcdh (rs1 : RIdx) (ps2 : PIdx) (s : State) : Host.Outcome State Fault Refusal :=
  ecdhCommand Config.curve rs1 ps2 s

end Sys2Proof.Machine
end

