-- ==== Sys2Proof/Machine/Dispatch.lean ====
section
/-! DEFINITION. The meaning of every command: one arm per constructor, each a direct call of the command's own meaning. -/

namespace Sys2Proof.Machine

def exec (i : Instr) (s : State) : Host.Outcome State Fault Refusal :=
  match i with
  | .fadd rd rs1 rs2 => Sys2Proof.Machine.execFadd rd rs1 rs2 s
  | .fsub rd rs1 rs2 => Sys2Proof.Machine.execFsub rd rs1 rs2 s
  | .fmul rd rs1 rs2 => Sys2Proof.Machine.execFmul rd rs1 rs2 s
  | .finv rd rs1 => Sys2Proof.Machine.execFinv rd rs1 s
  | .pinf pd => Sys2Proof.Machine.execPinf pd s
  | .pbase pd => Sys2Proof.Machine.execPbase pd s
  | .pset pd rs1 rs2 => Sys2Proof.Machine.execPset pd rs1 rs2 s
  | .oncurve rd rs1 rs2 => Sys2Proof.Machine.execOncurve rd rs1 rs2 s
  | .pneg pd ps1 => Sys2Proof.Machine.execPneg pd ps1 s
  | .padd pd ps1 ps2 => Sys2Proof.Machine.execPadd pd ps1 ps2 s
  | .pdbl pd ps1 => Sys2Proof.Machine.execPdbl pd ps1 s
  | .smul pd rs1 ps2 => Sys2Proof.Machine.execSmul pd rs1 ps2 s
  | .keygen rd pd => Sys2Proof.Machine.execKeygen rd pd s
  | .ecdh rs1 ps2 => Sys2Proof.Machine.execEcdh rs1 ps2 s
  | .encode ps1 c => Sys2Proof.Machine.execEncode ps1 c s
  | .decode pd => Sys2Proof.Machine.execDecode pd s
  | .fsqrt rd rs1 => Sys2Proof.Machine.execFsqrt rd rs1 s
  | .hkdf => Sys2Proof.Machine.execHkdf s

end Sys2Proof.Machine
end

