-- ==== Sys2Proof/Machine/Flags.lean ====
section
/-! DEFINITION. The status bits. The CORE has no condition codes (`10_state.md` R41): no command computes a flag. Its only
status is `STATUS` (R30) and `ERR` (R31), read by the host as 32-bit words. -/

namespace Sys2Proof.Machine

/-- `STATUS.BUSY` (R30). -/
def State.busy (s : State) : Bool := s.running.isSome

/-- `STATUS`: bit 0 `BUSY`, bit 1 `ERROR`, bit 2 `FATAL`, the others read as 0 (R30). -/
def State.statusWord (s : State) : Word32 :=
  BitVec.ofNat 32 (s.busy.toNat + 2 * s.error.toNat + 4 * s.fatal.toNat)

/-- `ERR`: bits 7 to 0 the code of the most recent command's error, 0 for none, the others read as 0 (R31, R201). -/
def State.errWord (s : State) : Word32 :=
  match s.err with
  | none => 0
  | some e => e.code.zeroExtend 32

end Sys2Proof.Machine
end

