-- ==== Sys2Proof/Machine/Primality.lean ====
section
/-! DEFINITION. What the default of the curve parameter needs to be admitted (`93_implementation_defined.md` U2): `p` and `n`
of R7 are prime, by a chain of Pratt certificates (Lucas's criterion), each checked by the kernel with the model's own
`modexp`. -/

namespace Sys2Proof.Machine

-- kernel checks one after another: each waits for those before it, and a waiting one holds a thread
set_option Elab.async false

/-! Repeated squaring is the power -/

theorem modexpLoop_eq (m : Nat) : ∀ (fuel g e acc : Nat), e < 2 ^ fuel → acc % m = acc →
    modexpLoop m fuel g e acc = acc * g ^ e % m
  | 0, g, e, acc, he, hacc => by
    have he0 : e = 0 := by simpa using he
    simp [modexpLoop, he0, hacc]
  | fuel + 1, g, e, acc, he, hacc => by
    have he2 : e / 2 < 2 ^ fuel := by rw [pow_succ] at he; omega
    have hsq : (g * g % m) ^ (e / 2) % m = g ^ (2 * (e / 2)) % m := by
      rw [← Nat.pow_mod, ← pow_two, ← pow_mul]
    rw [modexpLoop, modexpLoop_eq m fuel _ _ _ he2 (by split <;> simp [hacc])]
    split
    · have hodd : e = 2 * (e / 2) + 1 := by omega
      conv_rhs => rw [hodd, pow_succ]
      rw [Nat.mul_mod, hsq, Nat.mod_mod, ← Nat.mul_mod]
      ring_nf
    · have heven : e = 2 * (e / 2) := by omega
      conv_rhs => rw [heven]
      rw [Nat.mul_mod, hsq, ← Nat.mul_mod]

/-- `bitlen(v)` is an `L` with `v < 2^L` (R9). -/
theorem lt_two_pow_bitlen (v : Nat) : v < 2 ^ bitlen v := by
  unfold bitlen
  split
  · simp [*]
  · exact Nat.lt_log2_self

/-- `modexp(g, e, m) = (g^e) mod m` (R8). -/
theorem modexp_eq (g e m : Nat) : modexp g e m = g ^ e % m := by
  rw [modexp, modexpLoop_eq m _ _ _ _ (lt_two_pow_bitlen e) (Nat.mod_mod _ _),
    Nat.mul_mod, Nat.mod_mod, ← Nat.mul_mod, one_mul, ← Nat.pow_mod]

/-- Lucas's criterion with `modexp`: `g` has order `q − 1` mod `q`, the prime factors of `q − 1` being `fs`. -/
theorem prime_of_certificate (q g : Nat) (fs : List Nat) (hprimes : ∀ f ∈ fs, f.Prime)
    (hprod : fs.prod = q - 1) (hq : 1 < q) (hone : modexp g (q - 1) q = 1)
    (hne : fs.all (fun f => modexp g ((q - 1) / f) q != 1) = true) : q.Prime := by
  have key : ∀ e, (g : ZMod q) ^ e = 1 ↔ modexp g e q = 1 := fun e => by
    rw [modexp_eq]
    constructor
    · intro h
      have h' : ((g ^ e : Nat) : ZMod q) = ((1 : Nat) : ZMod q) := by push_cast; exact h
      rw [ZMod.natCast_eq_natCast_iff'] at h'
      rwa [Nat.mod_eq_of_lt hq] at h'
    · intro h
      have h' : ((g ^ e : Nat) : ZMod q) = ((1 : Nat) : ZMod q) := by
        rw [ZMod.natCast_eq_natCast_iff', Nat.mod_eq_of_lt hq, h]
      push_cast at h'; exact h'
  refine lucas_primality q (g : ZMod q) ((key _).2 hone) fun f hf hdvd => ?_
  rw [Ne, key]
  have hmem : f ∈ fs := by
    rw [← hprod] at hdvd
    obtain ⟨f', hf', hd⟩ := (Nat.Prime.prime hf).dvd_prod_iff.1 hdvd
    rwa [(Nat.prime_dvd_prime_iff_eq hf (hprimes f' hf')).1 hd]
  simpa using List.all_eq_true.1 hne f hmem

theorem prime_6700417 : (6700417 : Nat).Prime :=
  prime_of_certificate _ 5 [2, 2, 2, 2, 2, 2, 2, 3, 17449]
    (by
      simp only [List.forall_mem_cons]
      refine ⟨by norm_num, by norm_num, by norm_num, by norm_num, by norm_num, by norm_num, by norm_num, by norm_num, by norm_num, by simp⟩)
    (by decide +kernel) (by decide +kernel) (by decide +kernel) (by decide +kernel)

theorem prime_204061199 : (204061199 : Nat).Prime :=
  prime_of_certificate _ 11 [2, 11, 23, 107, 3769]
    (by
      simp only [List.forall_mem_cons]
      refine ⟨by norm_num, by norm_num, by norm_num, by norm_num, by norm_num, by simp⟩)
    (by decide +kernel) (by decide +kernel) (by decide +kernel) (by decide +kernel)

theorem prime_34282281433 : (34282281433 : Nat).Prime :=
  prime_of_certificate _ 17 [2, 2, 2, 3, 7, 204061199]
    (by
      simp only [List.forall_mem_cons]
      refine ⟨by norm_num, by norm_num, by norm_num, by norm_num, by norm_num, prime_204061199, by simp⟩)
    (by decide +kernel) (by decide +kernel) (by decide +kernel) (by decide +kernel)

theorem prime_66417393611 : (66417393611 : Nat).Prime :=
  prime_of_certificate _ 6 [2, 5, 53, 173, 197, 3677]
    (by
      simp only [List.forall_mem_cons]
      refine ⟨by norm_num, by norm_num, by norm_num, by norm_num, by norm_num, by norm_num, by simp⟩)
    (by decide +kernel) (by decide +kernel) (by decide +kernel) (by decide +kernel)

theorem prime_11290956913871 : (11290956913871 : Nat).Prime :=
  prime_of_certificate _ 13 [2, 5, 17, 66417393611]
    (by
      simp only [List.forall_mem_cons]
      refine ⟨by norm_num, by norm_num, by norm_num, prime_66417393611, by simp⟩)
    (by decide +kernel) (by decide +kernel) (by decide +kernel) (by decide +kernel)

theorem prime_46076956964474543 : (46076956964474543 : Nat).Prime :=
  prime_of_certificate _ 5 [2, 23, 18169, 78283, 704251]
    (by
      simp only [List.forall_mem_cons]
      refine ⟨by norm_num, by norm_num, by norm_num, by norm_num, by norm_num, by simp⟩)
    (by decide +kernel) (by decide +kernel) (by decide +kernel) (by decide +kernel)

theorem prime_774023187263532362759620327192479577272145303 : (774023187263532362759620327192479577272145303 : Nat).Prime :=
  prime_of_certificate _ 3 [2, 3, 3, 2411, 34282281433, 11290956913871, 46076956964474543]
    (by
      simp only [List.forall_mem_cons]
      refine ⟨by norm_num, by norm_num, by norm_num, by norm_num, prime_34282281433, prime_11290956913871, prime_46076956964474543, by simp⟩)
    (by decide +kernel) (by decide +kernel) (by decide +kernel) (by decide +kernel)

theorem prime_835945042244614951780389953367877943453916927241 : (835945042244614951780389953367877943453916927241 : Nat).Prime :=
  prime_of_certificate _ 11 [2, 2, 2, 3, 3, 3, 5, 774023187263532362759620327192479577272145303]
    (by
      simp only [List.forall_mem_cons]
      refine ⟨by norm_num, by norm_num, by norm_num, by norm_num, by norm_num, by norm_num, by norm_num, prime_774023187263532362759620327192479577272145303, by simp⟩)
    (by decide +kernel) (by decide +kernel) (by decide +kernel) (by decide +kernel)

theorem prime_curve_p : Config.curve.p.Prime :=
  prime_of_certificate _ 6 [2, 3, 5, 5, 17, 257, 641, 1531, 65537, 490463, 6700417, 835945042244614951780389953367877943453916927241]
    (by
      simp only [List.forall_mem_cons]
      refine ⟨by norm_num, by norm_num, by norm_num, by norm_num, by norm_num, by norm_num, by norm_num, by norm_num, by norm_num, by norm_num, prime_6700417, prime_835945042244614951780389953367877943453916927241, by simp⟩)
    (by decide +kernel) (by decide +kernel) (by decide +kernel) (by decide +kernel)

theorem prime_9350987 : (9350987 : Nat).Prime :=
  prime_of_certificate _ 2 [2, 17, 229, 1201]
    (by
      simp only [List.forall_mem_cons]
      refine ⟨by norm_num, by norm_num, by norm_num, by norm_num, by simp⟩)
    (by decide +kernel) (by decide +kernel) (by decide +kernel) (by decide +kernel)

theorem prime_187019741 : (187019741 : Nat).Prime :=
  prime_of_certificate _ 2 [2, 2, 5, 9350987]
    (by
      simp only [List.forall_mem_cons]
      refine ⟨by norm_num, by norm_num, by norm_num, prime_9350987, by simp⟩)
    (by decide +kernel) (by decide +kernel) (by decide +kernel) (by decide +kernel)

theorem prime_311245691 : (311245691 : Nat).Prime :=
  prime_of_certificate _ 2 [2, 5, 7, 17, 29, 29, 311]
    (by
      simp only [List.forall_mem_cons]
      refine ⟨by norm_num, by norm_num, by norm_num, by norm_num, by norm_num, by norm_num, by norm_num, by simp⟩)
    (by decide +kernel) (by decide +kernel) (by decide +kernel) (by decide +kernel)

theorem prime_622491383 : (622491383 : Nat).Prime :=
  prime_of_certificate _ 5 [2, 311245691]
    (by
      simp only [List.forall_mem_cons]
      refine ⟨by norm_num, prime_311245691, by simp⟩)
    (by decide +kernel) (by decide +kernel) (by decide +kernel) (by decide +kernel)

theorem prime_3969899 : (3969899 : Nat).Prime :=
  prime_of_certificate _ 2 [2, 19, 104471]
    (by
      simp only [List.forall_mem_cons]
      refine ⟨by norm_num, by norm_num, by norm_num, by simp⟩)
    (by decide +kernel) (by decide +kernel) (by decide +kernel) (by decide +kernel)

theorem prime_1002328039319 : (1002328039319 : Nat).Prime :=
  prime_of_certificate _ 19 [2, 126241, 3969899]
    (by
      simp only [List.forall_mem_cons]
      refine ⟨by norm_num, by norm_num, prime_3969899, by simp⟩)
    (by decide +kernel) (by decide +kernel) (by decide +kernel) (by decide +kernel)

theorem prime_191039911 : (191039911 : Nat).Prime :=
  prime_of_certificate _ 3 [2, 3, 5, 41, 155317]
    (by
      simp only [List.forall_mem_cons]
      refine ⟨by norm_num, by norm_num, by norm_num, by norm_num, by norm_num, by simp⟩)
    (by decide +kernel) (by decide +kernel) (by decide +kernel) (by decide +kernel)

theorem prime_208150935158385979 : (208150935158385979 : Nat).Prime :=
  prime_of_certificate _ 2 [2, 3, 11, 43, 127, 3023, 191039911]
    (by
      simp only [List.forall_mem_cons]
      refine ⟨by norm_num, by norm_num, by norm_num, by norm_num, by norm_num, by norm_num, prime_191039911, by simp⟩)
    (by decide +kernel) (by decide +kernel) (by decide +kernel) (by decide +kernel)

theorem prime_2624747550333869278416773953 : (2624747550333869278416773953 : Nat).Prime :=
  prime_of_certificate _ 7 [2, 2, 2, 2, 2, 2, 3, 3, 1297, 16879, 208150935158385979]
    (by
      simp only [List.forall_mem_cons]
      refine ⟨by norm_num, by norm_num, by norm_num, by norm_num, by norm_num, by norm_num, by norm_num, by norm_num, by norm_num, by norm_num, prime_208150935158385979, by simp⟩)
    (by decide +kernel) (by decide +kernel) (by decide +kernel) (by decide +kernel)

theorem prime_curve_n : Config.curve.n.Prime :=
  prime_of_certificate _ 7 [2, 2, 2, 2, 3, 71, 131, 373, 3407, 17449, 38189, 187019741, 622491383, 1002328039319, 2624747550333869278416773953]
    (by
      simp only [List.forall_mem_cons]
      refine ⟨by norm_num, by norm_num, by norm_num, by norm_num, by norm_num, by norm_num, by norm_num, by norm_num, by norm_num, by norm_num, by norm_num, prime_187019741, prime_622491383, prime_1002328039319, prime_2624747550333869278416773953, by simp⟩)
    (by decide +kernel) (by decide +kernel) (by decide +kernel) (by decide +kernel)

end Sys2Proof.Machine
end

