-- ==== Sys2Proof/Machine/Parameters.lean ====
section
/-! DEFINITION. The parameters of the step relation (`00_scope.md` R6, `10_state.md` R20, R43): the curve record and the
capacities, with their defaults. The other two, the HMAC primitive and the random source, are free values of Config. -/

namespace Sys2Proof

/-- The curve records the model takes, and rejects any other (`93_implementation_defined.md` U2, `92_eei_decisions.md` D13;
log entry 19): `p` is a prime with `p ≡ 3 (mod 4)`, `n` is prime, `G` is a point of the curve, and the six integers fit the
256-bit registers that show them (R6, R38). -/
structure Curve.Admissible (c : Curve) : Prop where
  p_prime : c.p.Prime
  p_mod_four : c.p % 4 = 3
  n_prime : c.n.Prime
  gx_lt : c.gx < c.p
  gy_lt : c.gy < c.p
  base_mem : c.gy * c.gy % c.p = (c.gx * c.gx * c.gx + c.a * c.gx + c.b) % c.p
  fits : c.p < 2 ^ 256 ∧ c.a < 2 ^ 256 ∧ c.b < 2 ^ 256 ∧ c.n < 2 ^ 256

/-- The parameters: an admissible curve record (R7) and the capacities (R6). -/
structure Parameters where
  curve : Curve
  capacities : Capacities
  admissible : curve.Admissible
  deriving DecidableEq, Repr

/-- The constants of R7 are admissible. -/
theorem Config.curve_admissible : Config.curve.Admissible where
  p_prime := Machine.prime_curve_p
  p_mod_four := by decide +kernel
  n_prime := Machine.prime_curve_n
  gx_lt := by decide +kernel
  gy_lt := by decide +kernel
  base_mem := by decide +kernel
  fits := by decide +kernel

/-- The defaults of R6 and R7, which `exec` and `step` take (log entry 9). -/
def Config.parameters : Parameters where
  curve := Config.curve
  capacities := Config.capacities
  admissible := Config.curve_admissible

end Sys2Proof
end

