-- ==== Sys2Proof/Machine/HostPort.lean ====
section
/-! DEFINITION. The host's five operations (`20_memory.md` R53 to R60) on the select space (`10_state.md` R26): what each
does while the CORE is idle, and what it does while a command runs; reset (`70_reset_and_hazards.md` R230 to R233). -/

namespace Sys2Proof.Machine

/-- The registers of the select map (R26). -/
inductive HostReg where
  | id
  | cmd
  | status
  | err
  | encLen
  | ikmLen
  | saltLen
  | infoLen
  | okmReq
  | okmLen
  | constP
  | constA
  | constB
  | constGx
  | constGy
  | constN
  | r (i : RIdx)
  | ptInf (i : PIdx)
  | ptX (i : PIdx)
  | ptY (i : PIdx)
  deriving DecidableEq, Repr

/-- The windows on the register files, selects 0x20 to 0x4F (R26, R39): `R[i]` at 0x20 + i, `PT_INF[i]`, `PT_X[i]`,
`PT_Y[i]` at 0x40 + 4i and the two after it; the rest is reserved. -/
def windowOfSelect (n : Nat) : Option HostReg :=
  if 0x20 ≤ n ∧ n < 0x28 then some (.r (Fin.ofNat 8 (n - 0x20)))
  else if 0x40 ≤ n ∧ n < 0x50 then
    let i : PIdx := Fin.ofNat 4 ((n - 0x40) / 4)
    match (n - 0x40) % 4 with
    | 0 => some (.ptInf i)
    | 1 => some (.ptX i)
    | 2 => some (.ptY i)
    | _ => none
  else none

/-- The register of a select number (R26); `none` for a reserved number and for a buffer's. -/
def HostReg.ofSelect (sel : BitVec 8) : Option HostReg :=
  match sel.toNat with
  | 0x00 => some .id
  | 0x01 => some .cmd
  | 0x02 => some .status
  | 0x03 => some .err
  | 0x04 => some .encLen
  | 0x05 => some .ikmLen
  | 0x06 => some .saltLen
  | 0x07 => some .infoLen
  | 0x08 => some .okmReq
  | 0x09 => some .okmLen
  | 0x10 => some .constP
  | 0x11 => some .constA
  | 0x12 => some .constB
  | 0x13 => some .constGx
  | 0x14 => some .constGy
  | 0x15 => some .constN
  | n => windowOfSelect n

/-- The buffer of a select number (R26). -/
def Buf.ofSelect (sel : BitVec 8) : Option Buf :=
  match sel.toNat with
  | 0x80 => some .enc
  | 0x81 => some .ikm
  | 0x82 => some .salt
  | 0x83 => some .info
  | 0x84 => some .okm
  | _ => none

/-- The `inf` field of a point register (R22, R39). -/
def Point.infField : Point → Word256
  | .inf => 1
  | .aff _ _ => 0

/-- The `x` field of a point register; 0 for infinity (R22, R39). -/
def Point.xField : Point → Word256
  | .inf => 0
  | .aff x _ => x

/-- The `y` field of a point register; 0 for infinity (R22, R39). -/
def Point.yField : Point → Word256
  | .inf => 0
  | .aff _ y => y

/-- What a register reads as (R28 to R39), on a given curve; a 32-bit register in the low bits. `CMD` stores nothing and reads 0 (R29). -/
def State.readHostReg (c : Curve) (s : State) : HostReg → Word256
  | .id => Config.idWord.zeroExtend 256
  | .cmd => 0
  | .status => s.statusWord.zeroExtend 256
  | .err => s.errWord.zeroExtend 256
  | .encLen => s.encLen.zeroExtend 256
  | .ikmLen => s.ikmLen.zeroExtend 256
  | .saltLen => s.saltLen.zeroExtend 256
  | .infoLen => s.infoLen.zeroExtend 256
  | .okmReq => s.okmReq.zeroExtend 256
  | .okmLen => s.okmLen.zeroExtend 256
  | .constP => BitVec.ofNat 256 c.p
  | .constA => BitVec.ofNat 256 c.a
  | .constB => BitVec.ofNat 256 c.b
  | .constGx => BitVec.ofNat 256 c.gx
  | .constGy => BitVec.ofNat 256 c.gy
  | .constN => BitVec.ofNat 256 c.n
  | .r i => s.reg i
  | .ptInf i => (s.point i).infField
  | .ptX i => (s.point i).xField
  | .ptY i => (s.point i).yField

/-- The effect of a write of `CMD` while the CORE is idle (R29, R73): it issues the command, unless `STATUS.FATAL = 1`,
when it is ignored (R210). -/
def State.issue (s : State) (w : Word32) : State :=
  if s.fatal then s else { s with running := some w }

/-- A host write of a 32-bit register: done by `f` if the value fits the register's width (R53), ignored otherwise
(log entry 10). -/
def State.write32 (s : State) (v : Word256) (f : Word32 → State) : State :=
  if v.toNat < 2 ^ 32 then f (v.truncate 32) else s

/-- A host write of a register (R53, R29, R32 to R36, R39); a write to a read-only register is ignored (R58). -/
def State.writeHostReg (s : State) (v : Word256) : HostReg → State
  | .id => s
  | .cmd => s.write32 v s.issue
  | .status => s
  | .err => s
  | .encLen => s.write32 v fun w => { s with encLen := w }
  | .ikmLen => s.write32 v fun w => { s with ikmLen := w }
  | .saltLen => s.write32 v fun w => { s with saltLen := w }
  | .infoLen => s.write32 v fun w => { s with infoLen := w }
  | .okmReq => s.write32 v fun w => { s with okmReq := w }
  | .okmLen => s
  | .constP => s
  | .constA => s
  | .constB => s
  | .constGx => s
  | .constGy => s
  | .constN => s
  | .r i => s.setReg i v
  | .ptInf _ => s
  | .ptX _ => s
  | .ptY _ => s

/-- `HostReadReg(sel)` while idle: 0 where no register is named (R58; log entry 11). -/
def hostReadReg (c : Curve) (s : State) (sel : BitVec 8) : Word256 :=
  match HostReg.ofSelect sel with
  | some g => s.readHostReg c g
  | none => 0

/-- `HostWriteReg(sel, v)` while idle: ignored where no register is named (R58; log entry 11). -/
def hostWriteReg (s : State) (sel : BitVec 8) (v : Word256) : State :=
  match HostReg.ofSelect sel with
  | some g => s.writeHostReg v g
  | none => s

/-- `HostReadBuf(sel, off)` while idle: 0 where no buffer is named or the offset is at or beyond the capacity (R58). -/
def hostReadBuf (k : Capacities) (s : State) (sel : BitVec 8) (off : Nat) : Byte :=
  match Buf.ofSelect sel with
  | some b => if off < b.cap k then (s.buf b).read off else 0
  | none => 0

/-- The host may write `ENC`, `IKM`, `SALT` and `INFO`, not `OKM` (R24, R53). -/
def Buf.hostWritable : Buf → Bool
  | .enc => true
  | .ikm => true
  | .salt => true
  | .info => true
  | .okm => false

/-- `HostWriteBuf(sel, off, v)` while idle: ignored where R58 (b) says so. -/
def hostWriteBuf (k : Capacities) (s : State) (sel : BitVec 8) (off : Nat) (v : Byte) : State :=
  match Buf.ofSelect sel with
  | some b => if b.hostWritable && off < b.cap k then s.setBuf b ((s.buf b).write off v) else s
  | none => s

/-- `HostReset` (R230 to R233): every piece of the CORE's state takes its reset value (R42), a running command is
abandoned (R232). The host and the random source are outside the CORE and keep theirs (log entries 1, 2, 5). -/
def hostReset (s : State) : State :=
  { State.reset with hostIn := s.hostIn, hostOut := s.hostOut, draws := s.draws }

/-- The state once a read has returned a value to the host. -/
def State.answer (s : State) (a : HostAnswer) : State := { s with hostOut := a :: s.hostOut }

/-- A host operation while `STATUS.BUSY = 0` (R53, R56, R58). -/
def hostWhenIdle (k : Parameters) (s : State) : HostOp → State
  | .readReg sel => s.answer (.reg (hostReadReg k.curve s sel))
  | .writeReg sel v => hostWriteReg s sel v
  | .readBuf sel off => s.answer (.byte (hostReadBuf k.capacities s sel off))
  | .writeBuf sel off v => hostWriteBuf k.capacities s sel off v
  | .reset => hostReset s

/-- `HostReadReg(sel)` while a command runs: `ID` and `STATUS` read normally, every other read returns 0 (R60). -/
def hostReadRegBusy (c : Curve) (s : State) (sel : BitVec 8) : Word256 :=
  if sel = 0x00 ∨ sel = 0x02 then hostReadReg c s sel else 0

/-- A host operation while `STATUS.BUSY = 1` (R60): every write is ignored; reset works (R53, R232). -/
def hostWhenBusy (c : Curve) (s : State) : HostOp → State
  | .readReg sel => s.answer (.reg (hostReadRegBusy c s sel))
  | .writeReg _ _ => s
  | .readBuf _ _ => s.answer (.byte 0)
  | .writeBuf _ _ _ => s
  | .reset => hostReset s

end Sys2Proof.Machine
end

