-- ==== Sys2Proof/Machine/Run.lean ====
section
/-! DEFINITION. What the machine does next: a host access, or the running command. A command is one step (`20_memory.md`
R59, `70_reset_and_hazards.md` R249), taken between two host accesses. -/

namespace Sys2Proof.Machine

/-- The meaning of a command for given parameters (R20): its result is a function of the command, the state, the parameters
and, for `KEYGEN`, a draw. At the defaults it is `exec`'s (`commandMeaning_default`, Laws). -/
def commandMeaning (k : Parameters) (i : Instr) (s : State) : Host.Outcome State Fault Refusal :=
  match i with
  | .fadd rd rs1 rs2 => faddCommand k.curve rd rs1 rs2 s
  | .fsub rd rs1 rs2 => fsubCommand k.curve rd rs1 rs2 s
  | .fmul rd rs1 rs2 => fmulCommand k.curve rd rs1 rs2 s
  | .finv rd rs1 => finvCommand k.curve rd rs1 s
  | .pinf pd => execPinf pd s
  | .pbase pd => pbaseCommand k.curve pd s
  | .pset pd rs1 rs2 => psetCommand k.curve pd rs1 rs2 s
  | .oncurve rd rs1 rs2 => oncurveCommand k.curve rd rs1 rs2 s
  | .pneg pd ps1 => pnegCommand k.curve pd ps1 s
  | .padd pd ps1 ps2 => paddCommand k.curve pd ps1 ps2 s
  | .pdbl pd ps1 => pdblCommand k.curve pd ps1 s
  | .smul pd rs1 ps2 => smulCommand k.curve pd rs1 ps2 s
  | .keygen rd pd => keygenCommand k.curve rd pd s
  | .ecdh rs1 ps2 => ecdhCommand k.curve rs1 ps2 s
  | .encode ps1 c => execEncode ps1 c s
  | .decode pd => decodeCommand k.curve pd s
  | .fsqrt rd rs1 => fsqrtCommand k.curve rd rs1 s
  | .hkdf => hkdfCommand k.capacities s

/-- The command of the word `w` runs to its end (R73): the matching row's meaning, or `IllegalCommand` for a word that
matches no row (R75). -/
def runCommand (k : Parameters) (w : Word32) (s : State) : Host.Outcome State Fault Refusal :=
  match decodeWord w with
  | .ok i => commandMeaning k i s
  | .error _ => endCommand s (.error .illegalCommand)

/-- One step, for given parameters (R43). Idle: the next host access, or nothing if the host makes none (log entry 4). A
command runs: a host access made while it runs (R60), else the command's end (log entry 3). -/
def advance (k : Parameters) (s : State) : Host.Outcome State Fault Refusal :=
  match s.running, s.hostIn with
  | none, [] => .next s
  | none, a :: rest => .next (hostWhenIdle k { s with hostIn := rest } a.op)
  | some w, [] => runCommand k w s
  | some w, a :: rest =>
    if a.whileBusy then .next (hostWhenBusy k.curve { s with hostIn := rest } a.op) else runCommand k w s

/-- The host's next access waits until the running command has ended. -/
def holdNextAccess : List HostAccess → List HostAccess
  | [] => []
  | a :: rest => { a with whileBusy := false } :: rest

/-- The state in which the command `w` has been issued (R29, R73) and ends with the next step. -/
def State.withCommand (s : State) (w : Word32) : State :=
  { s with running := some w, hostIn := holdNextAccess s.hostIn }

end Sys2Proof.Machine
end

