-- ==== Sys2Proof/Machine/Step.lean ====
section
/-! DEFINITION. The step, and the placing of a command word. The CORE fetches nothing (`10_state.md` R27): a command comes
from the host's write of `CMD`. -/

namespace Sys2Proof.Machine

/-- One step of the machine, with the default parameters (R6, R7; log entry 9): a host access, or the end of the running command. -/
def step (s : State) : Host.Outcome State Fault Refusal := advance Config.parameters s

/-- `s` with the word's command issued, as by the host's write of `CMD`, so that the very next step runs it (log entry
13). -/
def State.withFetchWord (s : State) (nbits w : Nat) : State := s.withCommand (tableWord nbits w)

end Sys2Proof.Machine
end

