-- ==== Sys2Proof/Safety.lean ====
section
/-! DEFINITION. What counts as a legal state of the CORE, in the terms the statements use: the invariants the spec states
of its registers and buffers; the group laws of the point unit; and what each command may write and raise, from the tables of the spec. -/

namespace Sys2Proof.Machine

/-- Every point register holds a well-formed Point of the curve (`10_state.md` R23). -/
abbrev State.PointsWellFormed (c : Curve) (s : State) : Prop := ∀ i : PIdx, (s.point i).wf c = true

/-- A buffer's contents are canonical and lie below its capacity (R24, R50, R64). -/
abbrev Buf.Holds (k : Capacities) (b : Buf) (m : Memory) : Prop := m.wf ∧ ∀ c ∈ m, c.1 < b.cap k

/-- Every buffer's contents are canonical and lie below its capacity. -/
abbrev State.BuffersCanonical (k : Capacities) (s : State) : Prop := ∀ b : Buf, b.Holds k (s.buf b)

/-- `ERR.CODE ≠ 0` exactly when `STATUS.ERROR = 1` (R31). -/
abbrev State.ErrorCoherent (s : State) : Prop := s.errWord ≠ 0 ↔ s.error = true

/-- `OKM_LEN` never exceeds the capacity of `OKM`: only a successful `HKDF` writes it (R37, R181). -/
abbrev State.OkmLenInRange (s : State) : Prop := s.okmLen.toNat ≤ Config.okmCap

/-- A legal state, for given parameters: the four together, and `STATUS.FATAL = 0` (R210). -/
structure State.Legal (k : Parameters) (s : State) : Prop where
  points : s.PointsWellFormed k.curve
  buffers : s.BuffersCanonical k.capacities
  errors : s.ErrorCoherent
  okmLen : s.OkmLenInRange
  notFatal : s.fatal = false

/-- The group laws of the adder `ptAdd` and the negator `ptNeg` on well-formed Points, the named property R125 asks for;
equality is that of the tagged value. -/
structure GroupLaws (c : Curve) : Prop where
  add_inf : ∀ P : Point, P.wf c = true → ptAdd c P .inf = P
  add_neg : ∀ P : Point, P.wf c = true → ptAdd c P (ptNeg c P) = .inf
  add_assoc : ∀ P Q R : Point, P.wf c = true → Q.wf c = true → R.wf c = true →
    ptAdd c (ptAdd c P Q) R = ptAdd c P (ptAdd c Q R)
  add_comm : ∀ P Q : Point, P.wf c = true → Q.wf c = true → ptAdd c P Q = ptAdd c Q P

end Sys2Proof.Machine

namespace Sys2Proof.Spec

open Sys2Proof.Machine

/-- The integer register a command writes when it ends without an error (R21). -/
def writesReg : Instr → Option RIdx
  | .fadd rd _ _ => some rd
  | .fsub rd _ _ => some rd
  | .fmul rd _ _ => some rd
  | .finv rd _ => some rd
  | .oncurve rd _ _ => some rd
  | .keygen rd _ => some rd
  | .fsqrt rd _ => some rd
  | .pinf _ => none
  | .pbase _ => none
  | .pset _ _ _ => none
  | .pneg _ _ => none
  | .padd _ _ _ => none
  | .pdbl _ _ => none
  | .smul _ _ _ => none
  | .ecdh _ _ => none
  | .encode _ _ => none
  | .decode _ => none
  | .hkdf => none

/-- The point register a command writes when it ends without an error (R22). -/
def writesPoint : Instr → Option PIdx
  | .pinf pd => some pd
  | .pbase pd => some pd
  | .pset pd _ _ => some pd
  | .pneg pd _ => some pd
  | .padd pd _ _ => some pd
  | .pdbl pd _ => some pd
  | .smul pd _ _ => some pd
  | .keygen _ pd => some pd
  | .decode pd => some pd
  | .fadd _ _ _ => none
  | .fsub _ _ _ => none
  | .fmul _ _ _ => none
  | .finv _ _ => none
  | .oncurve _ _ _ => none
  | .ecdh _ _ => none
  | .encode _ _ => none
  | .fsqrt _ _ => none
  | .hkdf => none

/-- The buffer a command stores to, and how many bytes from offset 0 (R63). -/
def storesTo (i : Instr) (s : State) : Option (Buf × Nat) :=
  match i with
  | .encode _ c => some (.enc, if c then 33 else 65)
  | .ecdh _ _ => some (.ikm, 32)
  | .hkdf => some (.okm, s.okmReq.toNat)
  | .fadd _ _ _ => none
  | .fsub _ _ _ => none
  | .fmul _ _ _ => none
  | .finv _ _ => none
  | .pinf _ => none
  | .pbase _ => none
  | .pset _ _ _ => none
  | .oncurve _ _ _ => none
  | .pneg _ _ => none
  | .padd _ _ _ => none
  | .pdbl _ _ => none
  | .smul _ _ _ => none
  | .keygen _ _ => none
  | .decode _ => none
  | .fsqrt _ _ => none

/-- The errors a command can raise when it runs (R204). -/
def errorsOf : Instr → List ErrorKind
  | .fadd _ _ _ => [.operandRange]
  | .fsub _ _ _ => [.operandRange]
  | .fmul _ _ _ => [.operandRange]
  | .finv _ _ => [.operandRange, .inverseOfZero]
  | .fsqrt _ _ => [.operandRange, .noSquareRoot]
  | .pset _ _ _ => [.operandRange, .pointNotOnCurve]
  | .oncurve _ _ _ => [.operandRange]
  | .pinf _ => []
  | .pbase _ => []
  | .pneg _ _ => []
  | .padd _ _ _ => []
  | .pdbl _ _ => []
  | .smul _ _ _ => []
  | .keygen _ _ => [.internalInvariant]
  | .ecdh _ _ => [.infinityNotAllowed, .pointNotOnCurve, .degenerateSharedSecret]
  | .encode _ _ => [.infinityNotAllowed]
  | .decode _ => [.invalidEncoding]
  | .hkdf => [.bufferLength, .outputTooLong]

end Sys2Proof.Spec
end

