-- ==== Sys2Proof/Certificates/Slice0/Obligations.lean ====
section
/-! DEFINITION. The statements for the provers. The vocabulary under `Sys2Proof.Spec` is written from the spec's own words
(numbers, residues, bytes), apart from the model's functions, so that a statement compares the model with the spec. -/

namespace Sys2Proof.Spec

open Sys2Proof.Machine

/-! The constants and the curve (R7) -/

/-- The field modulus `p`. -/
abbrev p : Nat := Config.curve.p

/-- The group order `n`. -/
abbrev n : Nat := Config.curve.n

/-- The affine point of two integers below `2^256` (R11). -/
abbrev pointOf (x y : Nat) : Point := .aff (BitVec.ofNat 256 x) (BitVec.ofNat 256 y)

/-- The base point `G`. -/
abbrev G : Point := pointOf Config.curve.gx Config.curve.gy

/-- `y² ≡ x³ + a·x + b (mod p)` (R111), for a given curve. -/
abbrev OnCurveOf (c : Curve) (x y : Nat) : Prop := y * y % c.p = (x * x * x + c.a * x + c.b) % c.p

/-- `OnCurveOf` for the curve of R7. -/
abbrev OnCurve (x y : Nat) : Prop := OnCurveOf Config.curve x y

/-- A well-formed Point (R11, R23), for a given curve. -/
abbrev WellFormedOf (c : Curve) (P : Point) : Prop :=
  P = .inf ∨ ∃ x y : Word256, P = .aff x y ∧ x.toNat < c.p ∧ y.toNat < c.p ∧ OnCurveOf c x.toNat y.toNat

/-- `WellFormedOf` for the curve of R7. -/
abbrev WellFormed (P : Point) : Prop := WellFormedOf Config.curve P

/-- `Q` is `P1 + P2`, the five cases of R113 in order, the slope `m` given by the line it belongs to; for a given curve. -/
def IsSumOf (c : Curve) (P1 P2 Q : Point) : Prop :=
  match P1, P2 with
  | .inf, _ => Q = P2
  | .aff _ _, .inf => Q = P1
  | .aff x1 y1, .aff x2 y2 =>
    if x1 = x2 ∧ (y1.toNat + y2.toNat) % c.p = 0 then Q = .inf
    else ∃ m x3 y3 : Nat, m < c.p ∧ x3 < c.p ∧ y3 < c.p ∧ Q = pointOf x3 y3 ∧
      (if x1 = x2 ∧ y1 = y2 then m * (2 * y1.toNat) % c.p = (3 * x1.toNat * x1.toNat + c.a) % c.p
        else (m * ((x2.toNat : Int) - x1.toNat)) % c.p = ((y2.toNat : Int) - y1.toNat) % c.p) ∧
      ((m * m : Int) - x1.toNat - x2.toNat) % c.p = x3 ∧
      (m * ((x1.toNat : Int) - x3) - y1.toNat) % c.p = y3

/-- `IsSumOf` for the curve of R7. -/
abbrev IsSum (P1 P2 Q : Point) : Prop := IsSumOf Config.curve P1 P2 Q

/-- `j·P`, `P` added to itself `j` times with `pt_add`, `0·P = ∞` (R141), for a given curve. -/
def multipleOf (c : Curve) : Nat → Point → Point
  | 0, _ => .inf
  | j + 1, P => ptAdd c (multipleOf c j P) P

/-- `multipleOf` for the curve of R7. -/
abbrev multiple (j : Nat) (P : Point) : Point := multipleOf Config.curve j P

/-- The curve has no singular point, which the group laws need (R125, from general knowledge). -/
abbrev NonSingular (c : Curve) : Prop := (4 * c.a ^ 3 + 27 * c.b ^ 2) % c.p ≠ 0

/-- "Prime-order" (R7): `n` times any point is infinity, on a curve with no singular point. That `n` is prime and that `G` is
a point hold of every parameter. -/
abbrev PrimeOrder (c : Curve) : Prop := NonSingular c ∧ ∀ P, WellFormedOf c P → multipleOf c c.n P = .inf

/-! Command words and how a command ends -/

/-- The command word with the given fields (R70): `OP | D<<8 | S1<<12 | S2<<16 | C<<20`. -/
abbrev word (op d s1 s2 c : Nat) : Word32 :=
  BitVec.ofNat 32 (op + d * 2 ^ 8 + s1 * 2 ^ 12 + s2 * 2 ^ 16 + c * 2 ^ 20)

/-- The state after a command that ended without an error (R205), `u` being the state with its destinations written. -/
abbrev succeeds (u : State) : State := { u with running := none, error := false, err := none }

/-- The state after a command that raised an error that is not fatal (R205, R206). -/
abbrev fails (s : State) (e : ErrorKind) : State := { s with running := none, error := true, err := some e }

/-- The state after a command that has written a number to one integer register, and nothing else. -/
abbrev writesNumber (s : State) (rd : RIdx) (v : Nat) : State :=
  succeeds { s with r := s.r.set rd (BitVec.ofNat 256 v) }

/-- The state after a command that has written one point register, and nothing else. -/
abbrev writesThePoint (s : State) (pd : PIdx) (P : Point) : State := succeeds { s with pt := s.pt.set pd P }

/-- The rows of the opcode table (R72): mnemonic, match, mask. -/
def opcodeTable : List (String × Word32 × Word32) :=
  [("FADD", 0x00000001, 0xFFF888FF), ("FSUB", 0x00000002, 0xFFF888FF), ("FMUL", 0x00000003, 0xFFF888FF),
   ("FINV", 0x00000004, 0xFFFF88FF), ("PINF", 0x00000010, 0xFFFFFCFF), ("PBASE", 0x00000011, 0xFFFFFCFF),
   ("PSET", 0x00000012, 0xFFF88CFF), ("ONCURVE", 0x00000013, 0xFFF888FF), ("PNEG", 0x00000014, 0xFFFFCCFF),
   ("PADD", 0x00000015, 0xFFFCCCFF), ("PDBL", 0x00000016, 0xFFFFCCFF), ("SMUL", 0x00000020, 0xFFFC8CFF),
   ("KEYGEN", 0x00000030, 0xFFFFC8FF), ("ECDH", 0x00000031, 0xFFFC8FFF), ("ENCODE", 0x00000040, 0xFFEFCFFF),
   ("DECODE", 0x00000041, 0xFFFFFCFF), ("FSQRT", 0x00000042, 0xFFFF88FF), ("HKDF", 0x00000050, 0xFFFFFFFF)]

/-- The mnemonic of a command (R72). -/
def mnemonic : Instr → String
  | .fadd _ _ _ => "FADD"
  | .fsub _ _ _ => "FSUB"
  | .fmul _ _ _ => "FMUL"
  | .finv _ _ => "FINV"
  | .pinf _ => "PINF"
  | .pbase _ => "PBASE"
  | .pset _ _ _ => "PSET"
  | .oncurve _ _ _ => "ONCURVE"
  | .pneg _ _ => "PNEG"
  | .padd _ _ _ => "PADD"
  | .pdbl _ _ => "PDBL"
  | .smul _ _ _ => "SMUL"
  | .keygen _ _ => "KEYGEN"
  | .ecdh _ _ => "ECDH"
  | .encode _ _ => "ENCODE"
  | .decode _ => "DECODE"
  | .fsqrt _ _ => "FSQRT"
  | .hkdf => "HKDF"

/-- No host access is made while the running command runs: the next one, if any, waits for its end. -/
abbrev Undisturbed (s : State) : Prop := ∀ a rest, s.hostIn = a :: rest → a.whileBusy = false

/-! Bytes -/

/-- Byte `i` of the 32-byte big-endian string of `v` (R10, R51). -/
abbrev bigEndian (v i : Nat) : Byte := BitVec.ofNat 8 (v / 256 ^ (31 - i))

/-- The integer whose 32-byte big-endian string stands in a buffer from offset `off` (R10, R51). -/
abbrev integerAt (m : Memory) (off : Nat) : Nat :=
  ∑ i ∈ Finset.range 32, (Memory.read m (off + i)).toNat * 256 ^ (31 - i)

/-- The first `k` bytes of a buffer (R25). -/
abbrev leading (m : Memory) (k : Nat) : List Byte := (List.range k).map (Memory.read m)

/-- `prk`, HKDF's extract step (R180). -/
abbrev prk (s : State) : List Byte :=
  (Config.hmac (if s.saltLen = 0 then List.replicate 32 0 else leading s.salt s.saltLen.toNat)
    (leading s.ikm s.ikmLen.toNat)).toList

/-- `t[i]`, HKDF's expand step (R180). -/
def block (s : State) : Nat → List Byte
  | 0 => []
  | i + 1 => (Config.hmac (prk s)
      (block s i ++ leading s.info s.infoLen.toNat ++ [BitVec.ofNat 8 (i + 1)])).toList

/-- The three inputs of HKDF fit their buffers, for given capacities (R6, R181). -/
abbrev HkdfInputsFit (k : Capacities) (s : State) : Prop :=
  s.ikmLen.toNat ≤ k.ikm ∧ s.saltLen.toNat ≤ k.salt ∧ s.infoLen.toNat ≤ k.info

/-! The select map (R26) -/

/-- A reserved select number (R26). -/
abbrev Reserved (sel : BitVec 8) : Prop :=
  (0x0A ≤ sel.toNat ∧ sel.toNat ≤ 0x0F) ∨ (0x16 ≤ sel.toNat ∧ sel.toNat ≤ 0x1F) ∨
  (0x28 ≤ sel.toNat ∧ sel.toNat ≤ 0x3F) ∨
  (0x40 ≤ sel.toNat ∧ sel.toNat ≤ 0x4F ∧ sel.toNat % 4 = 3) ∨
  (0x50 ≤ sel.toNat ∧ sel.toNat ≤ 0x7F) ∨ 0x85 ≤ sel.toNat

/-- A read-only register: `ID`, `STATUS`, `ERR`, `OKM_LEN`, `CONST_*`, `PT_INF[i]`, `PT_X[i]`, `PT_Y[i]` (R58). -/
abbrev ReadOnly (sel : BitVec 8) : Prop :=
  sel.toNat = 0x00 ∨ sel.toNat = 0x02 ∨ sel.toNat = 0x03 ∨ sel.toNat = 0x09 ∨
  (0x10 ≤ sel.toNat ∧ sel.toNat ≤ 0x15) ∨
  (0x40 ≤ sel.toNat ∧ sel.toNat ≤ 0x4F ∧ sel.toNat % 4 ≠ 3)

/-- The capacity of the buffer with a select number, if the number names one (R6, R24, R26), for given capacities. -/
def capacity (k : Capacities) (sel : BitVec 8) : Option Nat :=
  match sel.toNat with
  | 0x80 => some k.enc
  | 0x81 => some k.ikm
  | 0x82 => some k.salt
  | 0x83 => some k.info
  | 0x84 => some 8160
  | _ => none

/-- The code of an error kind, and 0 for none (R201). -/
def errorCode : Option ErrorKind → Nat
  | none => 0
  | some .invalidEncoding => 1
  | some .pointNotOnCurve => 2
  | some .infinityNotAllowed => 3
  | some .degenerateSharedSecret => 4
  | some .outputTooLong => 5
  | some .illegalCommand => 6
  | some .operandRange => 7
  | some .inverseOfZero => 8
  | some .noSquareRoot => 9
  | some .bufferLength => 10
  | some .internalInvariant => 255

/-- What each select number reads as while the CORE is idle or for `ID` and `STATUS` at any time (R26, R28 to R39): 0 for
`CMD` and for a reserved number (R58), and for a buffer's number (log entry 11); on a given curve. -/
def registerValue (c : Curve) (s : State) (sel : BitVec 8) : Word256 :=
  match sel.toNat with
  | 0x00 => 0x50323536
  | 0x01 => 0
  | 0x02 => BitVec.ofNat 256 (s.running.isSome.toNat + 2 * s.error.toNat + 4 * s.fatal.toNat)
  | 0x03 => BitVec.ofNat 256 (errorCode s.err)
  | 0x04 => BitVec.ofNat 256 s.encLen.toNat
  | 0x05 => BitVec.ofNat 256 s.ikmLen.toNat
  | 0x06 => BitVec.ofNat 256 s.saltLen.toNat
  | 0x07 => BitVec.ofNat 256 s.infoLen.toNat
  | 0x08 => BitVec.ofNat 256 s.okmReq.toNat
  | 0x09 => BitVec.ofNat 256 s.okmLen.toNat
  | 0x10 => BitVec.ofNat 256 c.p
  | 0x11 => BitVec.ofNat 256 c.a
  | 0x12 => BitVec.ofNat 256 c.b
  | 0x13 => BitVec.ofNat 256 c.gx
  | 0x14 => BitVec.ofNat 256 c.gy
  | 0x15 => BitVec.ofNat 256 c.n
  | m =>
    if 0x20 ≤ m ∧ m < 0x28 then s.r[Fin.ofNat 8 (m - 0x20)]
    else if 0x40 ≤ m ∧ m < 0x50 then
      match s.pt[Fin.ofNat 4 ((m - 0x40) / 4)], m % 4 with
      | .inf, 0 => 1
      | .aff x _, 1 => x
      | .aff _ y, 2 => y
      | _, _ => 0
    else 0

/-- What an offset of the buffer with a select number reads as while the CORE is idle (R24, R53): 0 at or beyond the
capacity and for a reserved number (R58), and for a register's number (log entry 11). -/
def bufferByte (k : Capacities) (s : State) (sel : BitVec 8) (off : Nat) : Byte :=
  match sel.toNat with
  | 0x80 => if off < k.enc then Memory.read s.enc off else 0
  | 0x81 => if off < k.ikm then Memory.read s.ikm off else 0
  | 0x82 => if off < k.salt then Memory.read s.salt off else 0
  | 0x83 => if off < k.info then Memory.read s.info off else 0
  | 0x84 => if off < 8160 then Memory.read s.okm off else 0
  | _ => 0

/-! What a command leaves, for the rules of the whole machine -/

/-- A failed command leaves the state before it, but for the status, the error and the count of draws (R205, R206). -/
abbrev LeavesAFailedState (s t : State) : Prop :=
  t.error = true → t.err ≠ none ∧
    t = { s with running := none, error := true, err := t.err, draws := t.draws,
                 fatal := s.fatal || decide (t.err = some .internalInvariant) }

/-- The error of the state after a command is one of the command's, and there is one exactly when `STATUS.ERROR` is 1; no
command runs any more (R204, R205). -/
abbrev RaisesOnlyItsErrors (i : Instr) (t : State) : Prop :=
  (∀ e, t.err = some e → e ∈ errorsOf i) ∧ (t.err = none ↔ t.error = false) ∧ t.running = none

/-- The registers a command leaves (R21, R22, R36), and the model's own fields. -/
abbrev KeepsOtherRegisters (i : Instr) (s t : State) : Prop :=
  (∀ j : RIdx, writesReg i ≠ some j → t.r[j] = s.r[j]) ∧
  (∀ j : PIdx, writesPoint i ≠ some j → t.pt[j] = s.pt[j]) ∧
  t.hostIn = s.hostIn ∧ t.hostOut = s.hostOut ∧ t.okmReq = s.okmReq ∧
  ((∃ rd pd, i = .keygen rd pd) ∨ t.draws = s.draws)

/-- The bytes and the length registers a command leaves (R63). -/
abbrev KeepsOtherBytes (i : Instr) (s t : State) : Prop :=
  ∀ b : Buf,
    (∀ off, (∀ b' k, storesTo i s = some (b', k) → b = b' → k ≤ off) →
      Memory.read (t.buf b) off = Memory.read (s.buf b) off) ∧
    ((∀ b' k, storesTo i s = some (b', k) → b ≠ b') → t.bufLen b = s.bufLen b)

end Sys2Proof.Spec

open Sys2Proof Sys2Proof.Machine Sys2Proof.Spec

/-! ## Reset -/

/-- R42: the state after reset, with the constants, which reset does not affect, for every curve. -/
def Obligations.ResetStateHoldsTheTableValues : Prop :=
  (∀ i : RIdx, State.reset.r[i] = 0) ∧ (∀ i : PIdx, State.reset.pt[i] = .inf) ∧
  (∀ (b : Buf) (off : Nat), Memory.read (State.reset.buf b) off = 0) ∧
  State.reset.encLen = 0 ∧ State.reset.ikmLen = 0 ∧ State.reset.saltLen = 0 ∧ State.reset.infoLen = 0 ∧
  State.reset.okmReq = 0 ∧ State.reset.okmLen = 0 ∧ State.reset.running = none ∧
  State.reset.statusWord = 0 ∧ State.reset.errWord = 0 ∧
  (∀ c : Curve, hostReadReg c State.reset 0x00 = 0x50323536 ∧
    hostReadReg c State.reset 0x10 = BitVec.ofNat 256 c.p ∧ hostReadReg c State.reset 0x11 = BitVec.ofNat 256 c.a ∧
    hostReadReg c State.reset 0x12 = BitVec.ofNat 256 c.b ∧ hostReadReg c State.reset 0x13 = BitVec.ofNat 256 c.gx ∧
    hostReadReg c State.reset 0x14 = BitVec.ofNat 256 c.gy ∧ hostReadReg c State.reset 0x15 = BitVec.ofNat 256 c.n ∧
    (∀ i : PIdx, hostReadReg c State.reset (BitVec.ofNat 8 (0x40 + 4 * i)) = 1 ∧
      hostReadReg c State.reset (BitVec.ofNat 8 (0x41 + 4 * i)) = 0 ∧
      hostReadReg c State.reset (BitVec.ofNat 8 (0x42 + 4 * i)) = 0))

/-- R231: what `HostReset` leaves, whether the CORE is idle or a command runs; the CORE then takes a command at once (R29,
R73). The host's own lists and the random source's counter are the model's (log entries 1, 2, 5). That an access says whether
it is made while a command runs, and that taking the command is a step of its own, is log entry 3. -/
def Obligations.HostResetRestoresEveryPiece : Prop :=
  ∀ (s : State) (rest : List HostAccess) (wb : Bool), s.hostIn = ⟨.reset, wb⟩ :: rest →
    (s.running = none ∨ wb = true) →
    ∃ t, step s = .next t ∧ (∀ i : RIdx, t.r[i] = 0) ∧ (∀ i : PIdx, t.pt[i] = .inf) ∧
      (∀ (b : Buf) (off : Nat), Memory.read (t.buf b) off = 0) ∧
      t.encLen = 0 ∧ t.ikmLen = 0 ∧ t.saltLen = 0 ∧ t.infoLen = 0 ∧ t.okmReq = 0 ∧ t.okmLen = 0 ∧
      t.statusWord = 0 ∧ t.errWord = 0 ∧ t.running = none ∧
      t.hostIn = rest ∧ t.hostOut = s.hostOut ∧ t.draws = s.draws ∧
      ∀ (w : Word32) (wb' : Bool) (more : List HostAccess), rest = ⟨.writeReg 0x01 (w.zeroExtend 256), wb'⟩ :: more →
        step t = .next { t with hostIn := more, running := some w }

/-! ## Encoding -/

/-- R72: a word is the command of a row exactly when `(w AND mask) = match`, and no two rows match the same word. -/
def Obligations.DecoderFollowsMatchAndMask : Prop :=
  (∀ w : Word32, ∀ row ∈ opcodeTable,
    (w &&& row.2.2 = row.2.1 ↔ ∃ i, decodeWord w = .ok i ∧ mnemonic i = row.1)) ∧
  (∀ w : Word32, ∀ row ∈ opcodeTable, ∀ row' ∈ opcodeTable,
    w &&& row.2.2 = row.2.1 → w &&& row'.2.2 = row'.2.1 → row = row')

/-- R71 and R72 describe the same words: the fields satisfy the format exactly when the word matches a row. -/
def Obligations.FormatsAgreeWithMatchAndMask : Prop :=
  ∀ w : Word32, (Fields.ofWord w).wellFormed = true ↔ ∃ row ∈ opcodeTable, w &&& row.2.2 = row.2.1

/-- Decoding an encoded command gives it back, for every command and every operand the encoding admits. -/
def Obligations.DecodeOfEncodeIsTheCommand : Prop := ∀ i : Instr, decodeWord (encodeInstr i) = .ok i

/-- A word that decodes to a command is the command's one word: no bit of it is dropped. -/
def Obligations.EncodeOfDecodeIsTheWord : Prop :=
  ∀ (w : Word32) (i : Instr), decodeWord w = .ok i → encodeInstr i = w

/-- A few words of the spec's own list (95_test_vectors.md, 2.1) decode to the commands they stand for. -/
def Obligations.ListedWordsDecode : Prop :=
  decodeWord 0x00021001 = .ok (.fadd 0 1 2) ∧ decodeWord 0x00001004 = .ok (.finv 0 1) ∧
  decodeWord 0x00010112 = .ok (.pset 1 0 1) ∧ decodeWord 0x00023315 = .ok (.padd 3 3 2) ∧
  decodeWord 0x00037320 = .ok (.smul 3 7 3) ∧ decodeWord 0x00003730 = .ok (.keygen 7 3) ∧
  decodeWord 0x00021031 = .ok (.ecdh 1 2) ∧ decodeWord 0x00101040 = .ok (.encode 1 true) ∧
  decodeWord 0x00001042 = .ok (.fsqrt 0 1) ∧ decodeWord 0x00000050 = .ok .hkdf

/-! ## The step and the host -/

/-- A step runs the decoded command: while a command runs undisturbed, the step is the meaning of the word's command (R59,
R73); a word placed by `withFetchWord` is run by the very next step (log entry 13). -/
def Obligations.StepRunsTheDecodedCommand : Prop :=
  (∀ (s : State) (w : Word32) (i : Instr), s.running = some w → Undisturbed s → decodeWord w = .ok i →
    step s = exec i s) ∧
  (∀ (s : State) (nbits w : Nat) (i : Instr), decodeTableWord nbits w = some i →
    step (s.withFetchWord nbits w) = exec i (s.withFetchWord nbits w))

/-- R29: a write of `CMD` while idle and not fatal issues the command; while a command runs, or while fatal, it is ignored;
a read of it returns 0 and changes nothing. The host's accesses and answers stand in the model's own lists (log entries 1,
2), here and below. That issuing is a step of its own is log entry 3, that `ERROR` and `ERR` keep their values in it is log
entry 17, and what a write of 2^32 or more does is log entry 10 and not said here. -/
def Obligations.CmdWriteIssuesTheCommand : Prop :=
  ∀ (s : State) (w : Word32) (wb : Bool) (rest : List HostAccess),
    (s.hostIn = ⟨.writeReg 0x01 (w.zeroExtend 256), wb⟩ :: rest →
      (s.running = none → s.fatal = false → step s = .next { s with hostIn := rest, running := some w }) ∧
      (s.running = none → s.fatal = true → step s = .next { s with hostIn := rest }) ∧
      (s.running ≠ none → wb = true → step s = .next { s with hostIn := rest })) ∧
    (s.hostIn = ⟨.readReg 0x01, wb⟩ :: rest → (s.running = none ∨ wb = true) →
      step s = .next { s with hostIn := rest, hostOut := .reg 0 :: s.hostOut })

/-- R75: a word that matches no row raises `IllegalCommand`, code 6, and nothing else changes; the all-zero word is one.
The running word and the host's access that waits are the model's form (log entries 1, 3). -/
def Obligations.WordOfNoRowRaisesIllegalCommand : Prop :=
  ∀ (s : State) (w : Word32), s.running = some w → Undisturbed s →
    (w = 0 ∨ ∀ row ∈ opcodeTable, w &&& row.2.2 ≠ row.2.1) →
    step s = .next (fails s .illegalCommand) ∧ (fails s .illegalCommand).errWord = 6

/-- R60: a host access while a command runs. `ID` and `STATUS` read normally, every other read returns 0, every write is
ignored; the running command goes on (the accesses and the answers: log entries 1, 2, 3). -/
def Obligations.AccessWhileBusyIsHarmless : Prop :=
  ∀ (s : State) (w : Word32) (op : HostOp) (rest : List HostAccess), s.running = some w →
    s.hostIn = ⟨op, true⟩ :: rest →
    (∀ sel, op = .readReg sel → (sel = 0x00 → step s = .next { s with hostIn := rest, hostOut := .reg 0x50323536 :: s.hostOut }) ∧
      (sel = 0x02 → step s = .next { s with hostIn := rest, hostOut := .reg (s.statusWord.zeroExtend 256) :: s.hostOut }) ∧
      (sel ≠ 0x00 → sel ≠ 0x02 → step s = .next { s with hostIn := rest, hostOut := .reg 0 :: s.hostOut })) ∧
    (∀ sel off, op = .readBuf sel off → step s = .next { s with hostIn := rest, hostOut := .byte 0 :: s.hostOut }) ∧
    (∀ sel v, op = .writeReg sel v → step s = .next { s with hostIn := rest }) ∧
    (∀ sel off v, op = .writeBuf sel off v → step s = .next { s with hostIn := rest })

/-- R58: accesses that are not allowed, while idle. A read of a reserved number, of `CMD`, or of an offset at or beyond the
capacity returns 0 and changes nothing; a write to a reserved number, a read-only register, `OKM`, or an offset at or
beyond the capacity is ignored. For all parameters (R20, R43); the accesses and the answers: log entries 1, 2. -/
def Obligations.DisallowedAccessDoesNothing : Prop :=
  ∀ (k : Parameters) (s : State) (op : HostOp) (wb : Bool) (rest : List HostAccess), s.running = none →
    s.hostIn = ⟨op, wb⟩ :: rest →
    (∀ sel, op = .readReg sel → Reserved sel ∨ sel = 0x01 →
      advance k s = .next { s with hostIn := rest, hostOut := .reg 0 :: s.hostOut }) ∧
    (∀ sel off, op = .readBuf sel off → Reserved sel ∨ (∃ c, capacity k.capacities sel = some c ∧ c ≤ off) →
      advance k s = .next { s with hostIn := rest, hostOut := .byte 0 :: s.hostOut }) ∧
    (∀ sel v, op = .writeReg sel v → Reserved sel ∨ ReadOnly sel → advance k s = .next { s with hostIn := rest }) ∧
    (∀ sel off v, op = .writeBuf sel off v →
      Reserved sel ∨ sel = 0x84 ∨ (∃ c, capacity k.capacities sel = some c ∧ c ≤ off) →
      advance k s = .next { s with hostIn := rest })

/-- R39: the windows on the register files, while idle. `R[i]` reads and writes `r[i]`; `PT_INF[i]`, `PT_X[i]`, `PT_Y[i]`
read the fields of `pt[i]`, the coordinates of infinity as 0, and are not written (log entries 1, 2, 15). -/
def Obligations.WindowsShowTheRegisterFiles : Prop :=
  ∀ (s : State) (wb : Bool) (rest : List HostAccess), s.running = none →
    (∀ i : RIdx,
      (s.hostIn = ⟨.readReg (BitVec.ofNat 8 (0x20 + i)), wb⟩ :: rest →
        step s = .next { s with hostIn := rest, hostOut := .reg s.r[i] :: s.hostOut }) ∧
      (∀ v, s.hostIn = ⟨.writeReg (BitVec.ofNat 8 (0x20 + i)) v, wb⟩ :: rest →
        step s = .next { s with hostIn := rest, r := s.r.set i v })) ∧
    (∀ i : PIdx,
      (s.hostIn = ⟨.readReg (BitVec.ofNat 8 (0x40 + 4 * i)), wb⟩ :: rest →
        step s = .next { s with hostIn := rest, hostOut := .reg (if s.pt[i] = .inf then 1 else 0) :: s.hostOut }) ∧
      (s.hostIn = ⟨.readReg (BitVec.ofNat 8 (0x41 + 4 * i)), wb⟩ :: rest →
        (s.pt[i] = .inf → step s = .next { s with hostIn := rest, hostOut := .reg 0 :: s.hostOut }) ∧
        ∀ x y, s.pt[i] = .aff x y → step s = .next { s with hostIn := rest, hostOut := .reg x :: s.hostOut }) ∧
      (s.hostIn = ⟨.readReg (BitVec.ofNat 8 (0x42 + 4 * i)), wb⟩ :: rest →
        (s.pt[i] = .inf → step s = .next { s with hostIn := rest, hostOut := .reg 0 :: s.hostOut }) ∧
        ∀ x y, s.pt[i] = .aff x y → step s = .next { s with hostIn := rest, hostOut := .reg y :: s.hostOut }) ∧
      (∀ (k : Nat) (v : Word256), k < 3 → s.hostIn = ⟨.writeReg (BitVec.ofNat 8 (0x40 + k + 4 * i)) v, wb⟩ :: rest →
        step s = .next { s with hostIn := rest }))

/-- R32 to R36: the length registers the host may write, while idle. A 32-bit value replaces the register whole, and it is
what a read of the register then returns; a value that does not fit leaves the register (log entry 10). For all parameters. -/
def Obligations.LengthRegistersHoldHostWrites : Prop :=
  ∀ (k : Parameters) (s : State) (sel : BitVec 8) (v : Word256) (wb : Bool) (rest : List HostAccess), s.running = none →
    s.hostIn = ⟨.writeReg sel v, wb⟩ :: rest → 4 ≤ sel.toNat → sel.toNat ≤ 8 →
    ∃ t, advance k s = .next t ∧
      (v.toNat < 2 ^ 32 → hostReadReg k.curve t sel = v) ∧ (2 ^ 32 ≤ v.toNat → t = { s with hostIn := rest }) ∧
      (∀ sel', sel' ≠ sel → hostReadReg k.curve t sel' = hostReadReg k.curve s sel') ∧
      t = { s with hostIn := rest, encLen := t.encLen, ikmLen := t.ikmLen, saltLen := t.saltLen,
                   infoLen := t.infoLen, okmReq := t.okmReq }

/-- The writable buffers, while idle (R24, R53): a byte written by the host reads as written, every other byte of every
buffer reads as before, and nothing else of the CORE changes. For all parameters (log entries 1, 12). -/
def Obligations.HostByteWriteChangesOneByte : Prop :=
  ∀ (k : Parameters) (s : State) (sel : BitVec 8) (off c : Nat) (v : Byte) (wb : Bool) (rest : List HostAccess),
    s.running = none → (∀ b, (s.buf b).wf) → s.hostIn = ⟨.writeBuf sel off v, wb⟩ :: rest → sel ≠ 0x84 →
    capacity k.capacities sel = some c → off < c →
    ∃ t, advance k s = .next t ∧ hostReadBuf k.capacities t sel off = v ∧
      (∀ sel' off', (sel' ≠ sel ∨ off' ≠ off) → hostReadBuf k.capacities t sel' off' = hostReadBuf k.capacities s sel' off') ∧
      (∀ b, (t.buf b).wf) ∧
      t = { s with hostIn := rest, enc := t.enc, ikm := t.ikm, salt := t.salt, info := t.info }

/-- R53, R56: an idle read answers the value of its register or its byte, for every select number and offset, and changes
nothing; no access but a write of `CMD` or a reset touches the status or the error. For all parameters (R20, R43); the
accesses and the answers: log entries 1, 2; what a register read of a buffer's number and the reverse answer: log entry 11. -/
def Obligations.OnlyCmdWritesHaveSideEffects : Prop :=
  ∀ (k : Parameters) (s : State) (op : HostOp) (wb : Bool) (rest : List HostAccess), s.running = none →
    s.hostIn = ⟨op, wb⟩ :: rest →
    ∃ t, advance k s = .next t ∧
      (∀ sel, op = .readReg sel → hostReadReg k.curve s sel = registerValue k.curve s sel ∧
        t = { s with hostIn := rest, hostOut := .reg (registerValue k.curve s sel) :: s.hostOut }) ∧
      (∀ sel off, op = .readBuf sel off → hostReadBuf k.capacities s sel off = bufferByte k.capacities s sel off ∧
        t = { s with hostIn := rest, hostOut := .byte (bufferByte k.capacities s sel off) :: s.hostOut }) ∧
      (∀ sel v, op = .writeReg sel v → sel ≠ 0x01 →
        t.running = none ∧ t.error = s.error ∧ t.err = s.err ∧ t.fatal = s.fatal) ∧
      (∀ sel off v, op = .writeBuf sel off v →
        t.running = none ∧ t.error = s.error ∧ t.err = s.err ∧ t.fatal = s.fatal)

/-- R210: while `STATUS.FATAL = 1` no host access starts a command, and only reset clears the bit (log entry 1). -/
def Obligations.FatalStopsCommandsUntilReset : Prop :=
  ∀ (s : State) (op : HostOp) (wb : Bool) (rest : List HostAccess), s.running = none → s.fatal = true →
    s.hostIn = ⟨op, wb⟩ :: rest →
    ∃ t, step s = .next t ∧ t.running = none ∧ (op ≠ .reset → t.fatal = true ∧ t.error = s.error ∧ t.err = s.err) ∧
      (op = .reset → t.fatal = false)

/-- R201: the error codes, as `ERR` shows them. -/
def Obligations.ErrorKindsHaveTheirCodes : Prop :=
  ∀ s : State, ({ s with err := none }).errWord = 0 ∧
    ({ s with err := some .invalidEncoding }).errWord = 1 ∧ ({ s with err := some .pointNotOnCurve }).errWord = 2 ∧
    ({ s with err := some .infinityNotAllowed }).errWord = 3 ∧
    ({ s with err := some .degenerateSharedSecret }).errWord = 4 ∧
    ({ s with err := some .outputTooLong }).errWord = 5 ∧ ({ s with err := some .illegalCommand }).errWord = 6 ∧
    ({ s with err := some .operandRange }).errWord = 7 ∧ ({ s with err := some .inverseOfZero }).errWord = 8 ∧
    ({ s with err := some .noSquareRoot }).errWord = 9 ∧ ({ s with err := some .bufferLength }).errWord = 10 ∧
    ({ s with err := some .internalInvariant }).errWord = 255

/-- R30: `STATUS` has `BUSY` in bit 0, `ERROR` in bit 1, `FATAL` in bit 2 and reads 0 above. -/
def Obligations.StatusWordHasThreeBits : Prop :=
  ∀ s : State, s.statusWord.getLsbD 0 = s.running.isSome ∧ s.statusWord.getLsbD 1 = s.error ∧
    s.statusWord.getLsbD 2 = s.fatal ∧ ∀ i, 3 ≤ i → s.statusWord.getLsbD i = false

/-! ## The field unit -/

/-- R91: `FADD`. -/
def Obligations.FaddAddsModP : Prop :=
  ∀ (rd rs1 rs2 : RIdx) (s : State),
    decodeWord (word 0x01 rd rs1 rs2 0) = .ok (.fadd rd rs1 rs2) ∧
    (s.r[rs1].toNat < p → s.r[rs2].toNat < p →
      exec (.fadd rd rs1 rs2) s = .next (succeeds
        { s with r := s.r.set rd (BitVec.ofNat 256 ((s.r[rs1].toNat + s.r[rs2].toNat) % p)) })) ∧
    (p ≤ s.r[rs1].toNat ∨ p ≤ s.r[rs2].toNat →
      exec (.fadd rd rs1 rs2) s = .next (fails s .operandRange))

/-- R92: `FSUB`, with the non-negative residue. -/
def Obligations.FsubSubtractsModP : Prop :=
  ∀ (rd rs1 rs2 : RIdx) (s : State),
    decodeWord (word 0x02 rd rs1 rs2 0) = .ok (.fsub rd rs1 rs2) ∧
    (s.r[rs1].toNat < p → s.r[rs2].toNat < p →
      exec (.fsub rd rs1 rs2) s = .next (succeeds
        { s with r := s.r.set rd (BitVec.ofNat 256 (if s.r[rs2].toNat ≤ s.r[rs1].toNat
            then s.r[rs1].toNat - s.r[rs2].toNat else s.r[rs1].toNat + p - s.r[rs2].toNat)) })) ∧
    (p ≤ s.r[rs1].toNat ∨ p ≤ s.r[rs2].toNat →
      exec (.fsub rd rs1 rs2) s = .next (fails s .operandRange))

/-- R93: `FMUL`, the canonical product. -/
def Obligations.FmulMultipliesModP : Prop :=
  ∀ (rd rs1 rs2 : RIdx) (s : State),
    decodeWord (word 0x03 rd rs1 rs2 0) = .ok (.fmul rd rs1 rs2) ∧
    (s.r[rs1].toNat < p → s.r[rs2].toNat < p →
      exec (.fmul rd rs1 rs2) s = .next (succeeds
        { s with r := s.r.set rd (BitVec.ofNat 256 (s.r[rs1].toNat * s.r[rs2].toNat % p)) })) ∧
    (p ≤ s.r[rs1].toNat ∨ p ≤ s.r[rs2].toNat →
      exec (.fmul rd rs1 rs2) s = .next (fails s .operandRange))

/-- R95, R96: `FINV` writes the unique inverse, `x^(p−2) mod p`; 0 and values at or above `p` are refused. -/
def Obligations.FinvWritesTheInverse : Prop :=
  ∀ (rd rs1 : RIdx) (s : State),
    decodeWord (word 0x04 rd rs1 0 0) = .ok (.finv rd rs1) ∧
    (s.r[rs1].toNat < p → s.r[rs1].toNat ≠ 0 → ∃ v, v = s.r[rs1].toNat ^ (p - 2) % p ∧ 1 ≤ v ∧ v < p ∧
      s.r[rs1].toNat * v % p = 1 ∧ (∀ u < p, s.r[rs1].toNat * u % p = 1 → u = v) ∧
      exec (.finv rd rs1) s = .next (succeeds { s with r := s.r.set rd (BitVec.ofNat 256 v) })) ∧
    (s.r[rs1].toNat = 0 → exec (.finv rd rs1) s = .next (fails s .inverseOfZero)) ∧
    (p ≤ s.r[rs1].toNat → exec (.finv rd rs1) s = .next (fails s .operandRange))

/-- R162, R163: `FSQRT` writes `v^((p+1)/4) mod p`, a root of a square; a value that is no square raises `NoSquareRoot`. -/
def Obligations.FsqrtWritesASquareRoot : Prop :=
  ∀ (rd rs1 : RIdx) (s : State),
    decodeWord (word 0x42 rd rs1 0 0) = .ok (.fsqrt rd rs1) ∧
    (s.r[rs1].toNat < p → (∃ u, u * u % p = s.r[rs1].toNat) →
      ∃ t, t = s.r[rs1].toNat ^ ((p + 1) / 4) % p ∧ t * t % p = s.r[rs1].toNat ∧
        exec (.fsqrt rd rs1) s = .next (succeeds { s with r := s.r.set rd (BitVec.ofNat 256 t) })) ∧
    (s.r[rs1].toNat < p → (¬∃ u, u * u % p = s.r[rs1].toNat) →
      exec (.fsqrt rd rs1) s = .next (fails s .noSquareRoot)) ∧
    (p ≤ s.r[rs1].toNat → exec (.fsqrt rd rs1) s = .next (fails s .operandRange))

/-- R90: every result a field command writes is in `[0, p)`. -/
def Obligations.FieldResultsAreCanonical : Prop :=
  ∀ (i : Instr) (rd : RIdx) (s t : State),
    (∃ rs1 rs2, i = .fadd rd rs1 rs2 ∨ i = .fsub rd rs1 rs2 ∨ i = .fmul rd rs1 rs2 ∨ i = .finv rd rs1 ∨
      i = .fsqrt rd rs1 ∨ i = .oncurve rd rs1 rs2) →
    exec i s = .next t → t.error = false → t.r[rd].toNat < p

/-! ## The point unit -/

/-- R118, R119: `PINF` and `PBASE`. -/
def Obligations.PinfAndPbaseLoadConstants : Prop :=
  ∀ (pd : PIdx) (s : State),
    decodeWord (word 0x10 pd 0 0 0) = .ok (.pinf pd) ∧ decodeWord (word 0x11 pd 0 0 0) = .ok (.pbase pd) ∧
    exec (.pinf pd) s = .next (succeeds { s with pt := s.pt.set pd .inf }) ∧
    exec (.pbase pd) s = .next (succeeds { s with pt := s.pt.set pd G })

/-- R120: `PSET` writes a validated point, and nothing else. -/
def Obligations.PsetWritesOnlyCurvePoints : Prop :=
  ∀ (pd : PIdx) (rs1 rs2 : RIdx) (s : State),
    decodeWord (word 0x12 pd rs1 rs2 0) = .ok (.pset pd rs1 rs2) ∧
    (s.r[rs1].toNat < p → s.r[rs2].toNat < p → OnCurve s.r[rs1].toNat s.r[rs2].toNat →
      exec (.pset pd rs1 rs2) s = .next (succeeds { s with pt := s.pt.set pd (.aff s.r[rs1] s.r[rs2]) })) ∧
    (s.r[rs1].toNat < p → s.r[rs2].toNat < p → ¬OnCurve s.r[rs1].toNat s.r[rs2].toNat →
      exec (.pset pd rs1 rs2) s = .next (fails s .pointNotOnCurve)) ∧
    (p ≤ s.r[rs1].toNat ∨ p ≤ s.r[rs2].toNat → exec (.pset pd rs1 rs2) s = .next (fails s .operandRange))

/-- R121: `ONCURVE` answers 1 or 0. -/
def Obligations.OncurveAnswersTheEquation : Prop :=
  ∀ (rd rs1 rs2 : RIdx) (s : State),
    decodeWord (word 0x13 rd rs1 rs2 0) = .ok (.oncurve rd rs1 rs2) ∧
    (s.r[rs1].toNat < p → s.r[rs2].toNat < p →
      exec (.oncurve rd rs1 rs2) s = .next (succeeds
        { s with r := s.r.set rd (if OnCurve s.r[rs1].toNat s.r[rs2].toNat then 1 else 0) })) ∧
    (p ≤ s.r[rs1].toNat ∨ p ≤ s.r[rs2].toNat → exec (.oncurve rd rs1 rs2) s = .next (fails s .operandRange))

/-- R112, R122: `PNEG`; the result is well-formed, and negating twice gives the point back. -/
def Obligations.PnegNegatesThePoint : Prop :=
  ∀ (pd ps1 : PIdx) (s : State),
    decodeWord (word 0x14 pd ps1 0 0) = .ok (.pneg pd ps1) ∧
    (s.pt[ps1] = .inf → exec (.pneg pd ps1) s = .next (succeeds { s with pt := s.pt.set pd .inf })) ∧
    (∀ x y, s.pt[ps1] = .aff x y → WellFormed (.aff x y) →
      ∃ y' : Word256, y'.toNat = (if y.toNat = 0 then 0 else p - y.toNat) ∧ WellFormed (.aff x y') ∧
        exec (.pneg pd ps1) s = .next (succeeds { s with pt := s.pt.set pd (.aff x y') }) ∧
        ptNeg Config.curve (.aff x y') = .aff x y)

/-- R113, R114, R123: `PADD` writes the sum, and the sum is well-formed. -/
def Obligations.PaddWritesTheSum : Prop :=
  ∀ (pd ps1 ps2 : PIdx) (s : State),
    decodeWord (word 0x15 pd ps1 ps2 0) = .ok (.padd pd ps1 ps2) ∧
    (WellFormed s.pt[ps1] → WellFormed s.pt[ps2] →
      ∃ Q, IsSum s.pt[ps1] s.pt[ps2] Q ∧ WellFormed Q ∧
        exec (.padd pd ps1 ps2) s = .next (succeeds { s with pt := s.pt.set pd Q }))

/-- R115, R116, R124: `PDBL` writes `2·P`, what `PADD` of the point with itself writes. -/
def Obligations.PdblWritesTheDouble : Prop :=
  ∀ (pd ps1 : PIdx) (s : State),
    decodeWord (word 0x16 pd ps1 0 0) = .ok (.pdbl pd ps1) ∧
    (WellFormed s.pt[ps1] →
      exec (.pdbl pd ps1) s = exec (.padd pd ps1 ps1) s ∧
      ∃ Q, IsSum s.pt[ps1] s.pt[ps1] Q ∧ exec (.pdbl pd ps1) s = .next (succeeds { s with pt := s.pt.set pd Q }))

/-- R125: the group laws of the adder and the negator, on well-formed Points: the named property of the model, `GroupLaws`,
holds, and the same laws spelled out on Points that are well-formed in the spec's words. -/
def Obligations.PointAdditionIsAGroup : Prop :=
  GroupLaws Config.curve ∧ ∀ P Q R : Point, WellFormed P → WellFormed Q → WellFormed R →
    ptAdd Config.curve P .inf = P ∧ ptAdd Config.curve P (ptNeg Config.curve P) = .inf ∧
    ptAdd Config.curve (ptAdd Config.curve P Q) R = ptAdd Config.curve P (ptAdd Config.curve Q R) ∧
    ptAdd Config.curve P Q = ptAdd Config.curve Q P

/-- R117: no point of this curve has `y = 0`; it rests on the constants of R7 (log entry 8). -/
def Obligations.NoPointHasZeroOrdinate : Prop := ∀ x y : Word256, WellFormed (.aff x y) → y.toNat ≠ 0

/-! ## Scalar multiplication and key agreement -/

/-- R140, R141, R142: `SMUL` writes `k·P`, the same as `(k mod n)·P`; the scalar register is not changed. -/
def Obligations.SmulWritesTheMultiple : Prop :=
  ∀ (pd : PIdx) (rs1 : RIdx) (ps2 : PIdx) (s : State),
    decodeWord (word 0x20 pd rs1 ps2 0) = .ok (.smul pd rs1 ps2) ∧
    (WellFormed s.pt[ps2] →
      exec (.smul pd rs1 ps2) s = .next (succeeds { s with pt := s.pt.set pd (multiple (s.r[rs1].toNat % n) s.pt[ps2]) }) ∧
      multiple (s.r[rs1].toNat % n) s.pt[ps2] = multiple s.r[rs1].toNat s.pt[ps2] ∧
      WellFormed (multiple s.r[rs1].toNat s.pt[ps2]))

/-- R143: the properties of scalar multiplication; that `n - 1` times `G` is `-G` is in `95_test_vectors.md`, 1.2 and 2.4. -/
def Obligations.ScalarMultiplicationLaws : Prop :=
  scalarMult Config.curve n G = .inf ∧ scalarMult Config.curve (n - 1) G = ptNeg Config.curve G ∧
  scalarMult Config.curve 1 G = G ∧ scalarMult Config.curve 2 G = ptDbl Config.curve G ∧
  (∀ (k : Nat) (P Q : Point), WellFormed P → WellFormed Q →
    scalarMult Config.curve k (ptAdd Config.curve P Q)
      = ptAdd Config.curve (scalarMult Config.curve k P) (scalarMult Config.curve k Q)) ∧
  (∀ k1 k2 : Nat, scalarMult Config.curve (k1 * k2 % n) G
      = scalarMult Config.curve k1 (scalarMult Config.curve k2 G))

/-- R150, R151: `KEYGEN` never fails. For the draw of the step, and for every draw the source may give, it writes `d` and
`d·G`, a well-formed point other than infinity, and takes exactly one answer of the source (the count of answers: log entry 5). -/
def Obligations.KeygenWritesAKeyPair : Prop :=
  ∀ (rd : RIdx) (pd : PIdx) (s : State),
    decodeWord (word 0x30 rd pd 0 0) = .ok (.keygen rd pd) ∧
    (∃ d, 1 ≤ d ∧ d < n ∧ exec (.keygen rd pd) s = .next (succeeds
      { s with r := s.r.set rd (BitVec.ofNat 256 d), pt := s.pt.set pd (multiple d G), draws := s.draws + 1 })) ∧
    (∀ d, 1 ≤ d → d < n → multiple d G ≠ .inf ∧ WellFormed (multiple d G) ∧
      keygenResult Config.curve d rd pd s
        = .ok { s with r := s.r.set rd (BitVec.ofNat 256 d), pt := s.pt.set pd (multiple d G) })

/-- R152, R153: `ECDH`. The secret is the x-coordinate of `s·Q`, 32 bytes big-endian, in `IKM[0..31]`; the bytes from 32 on
and everything else keep their value. -/
def Obligations.EcdhDeliversTheSharedSecret : Prop :=
  ∀ (rs1 : RIdx) (ps2 : PIdx) (s : State),
    decodeWord (word 0x31 0 rs1 ps2 0) = .ok (.ecdh rs1 ps2) ∧
    (s.pt[ps2] = .inf → exec (.ecdh rs1 ps2) s = .next (fails s .infinityNotAllowed)) ∧
    (∀ x y, s.pt[ps2] = .aff x y → ¬OnCurve x.toNat y.toNat →
      exec (.ecdh rs1 ps2) s = .next (fails s .pointNotOnCurve)) ∧
    (s.pt[ps2] ≠ .inf → WellFormed s.pt[ps2] → s.r[rs1].toNat % n = 0 →
      exec (.ecdh rs1 ps2) s = .next (fails s .degenerateSharedSecret)) ∧
    (s.pt[ps2] ≠ .inf → WellFormed s.pt[ps2] → s.r[rs1].toNat % n ≠ 0 → s.ikm.wf →
      ∃ (x y : Word256) (t : State), multiple s.r[rs1].toNat s.pt[ps2] = .aff x y ∧
        exec (.ecdh rs1 ps2) s = .next t ∧ t = succeeds { s with ikm := t.ikm, ikmLen := 32 } ∧ t.ikm.wf ∧
        ∀ off, Memory.read t.ikm off = if off < 32 then bigEndian x.toNat off else Memory.read s.ikm off)

/-- R154: the two sides of a key agreement write the same 32 bytes. -/
def Obligations.EcdhIsSymmetric : Prop :=
  ∀ (a b : Nat) (ra rb : RIdx) (pA pB : PIdx) (s s' : State), 1 ≤ a → a < n → 1 ≤ b → b < n →
    s.ikm.wf → s'.ikm.wf → s.r[ra].toNat = a → s.pt[pB] = scalarMult Config.curve b G →
    s'.r[rb].toNat = b → s'.pt[pA] = scalarMult Config.curve a G →
    ∃ (t t' : State) (x y : Word256), exec (.ecdh ra pB) s = .next t ∧ exec (.ecdh rb pA) s' = .next t' ∧
      t.error = false ∧ t'.error = false ∧ t.ikmLen = 32 ∧ t'.ikmLen = 32 ∧
      multiple (a * b % n) G = .aff x y ∧
      ∀ off < 32, Memory.read t.ikm off = bigEndian x.toNat off ∧ Memory.read t'.ikm off = bigEndian x.toNat off

/-! ## The codec -/

/-- R160, R161: `ENCODE` writes the SEC1 form from offset 0 of `ENC`, 33 or 65 bytes; the rest keeps its value. -/
def Obligations.EncodeWritesTheSec1Form : Prop :=
  ∀ (ps1 : PIdx) (c : Bool) (s : State),
    decodeWord (word 0x40 0 ps1 0 c.toNat) = .ok (.encode ps1 c) ∧
    (s.pt[ps1] = .inf → exec (.encode ps1 c) s = .next (fails s .infinityNotAllowed)) ∧
    (∀ x y : Word256, s.pt[ps1] = .aff x y → WellFormed (.aff x y) → s.enc.wf →
      ∃ t, exec (.encode ps1 c) s = .next t ∧ t.enc.wf ∧
        t = succeeds { s with enc := t.enc, encLen := if c then 33 else 65 } ∧
        (c = true → ∀ off, Memory.read t.enc off =
          if off = 0 then (if y.toNat % 2 = 0 then 0x02 else 0x03)
          else if off < 33 then bigEndian x.toNat (off - 1) else Memory.read s.enc off) ∧
        (c = false → ∀ off, Memory.read t.enc off =
          if off = 0 then 0x04 else if off < 33 then bigEndian x.toNat (off - 1)
          else if off < 65 then bigEndian y.toNat (off - 33) else Memory.read s.enc off))

/-- R164, R165: `DECODE`. The uncompressed form is taken when both coordinates are in range and on the curve; the
compressed form when the curve has a point with that abscissa and the parity the prefix asks for, which is then the
result; anything else is `InvalidEncoding`. -/
def Obligations.DecodeReadsTheSec1Form : Prop :=
  ∀ (pd : PIdx) (s : State),
    decodeWord (word 0x41 pd 0 0 0) = .ok (.decode pd) ∧
    (s.encLen.toNat ≠ 33 → s.encLen.toNat ≠ 65 → exec (.decode pd) s = .next (fails s .invalidEncoding)) ∧
    (s.encLen.toNat = 65 →
      (Memory.read s.enc 0 = 0x04 ∧ integerAt s.enc 1 < p ∧ integerAt s.enc 33 < p ∧
          OnCurve (integerAt s.enc 1) (integerAt s.enc 33) →
        exec (.decode pd) s = .next (succeeds
          { s with pt := s.pt.set pd (pointOf (integerAt s.enc 1) (integerAt s.enc 33)) })) ∧
      (¬(Memory.read s.enc 0 = 0x04 ∧ integerAt s.enc 1 < p ∧ integerAt s.enc 33 < p ∧
          OnCurve (integerAt s.enc 1) (integerAt s.enc 33)) →
        exec (.decode pd) s = .next (fails s .invalidEncoding))) ∧
    (s.encLen.toNat = 33 →
      (∀ y, (Memory.read s.enc 0 = 0x02 ∧ y % 2 = 0 ∨ Memory.read s.enc 0 = 0x03 ∧ y % 2 = 1) →
          integerAt s.enc 1 < p → y < p → OnCurve (integerAt s.enc 1) y →
        exec (.decode pd) s = .next (succeeds
          { s with pt := s.pt.set pd (pointOf (integerAt s.enc 1) y) })) ∧
      ((¬∃ y, (Memory.read s.enc 0 = 0x02 ∧ y % 2 = 0 ∨ Memory.read s.enc 0 = 0x03 ∧ y % 2 = 1) ∧
          integerAt s.enc 1 < p ∧ y < p ∧ OnCurve (integerAt s.enc 1) y) →
        exec (.decode pd) s = .next (fails s .invalidEncoding)))

/-- R166: `ENCODE ps, c` followed by `DECODE pd` leaves `pt[pd] = pt[ps]`, for both values of `c`. -/
def Obligations.DecodeOfEncodeGivesThePoint : Prop :=
  ∀ (ps pd : PIdx) (c : Bool) (s : State), WellFormed s.pt[ps] → s.pt[ps] ≠ .inf → s.enc.wf →
    ∃ t u, exec (.encode ps c) s = .next t ∧ exec (.decode pd) t = .next u ∧ u.error = false ∧ u.pt[pd] = s.pt[ps]

/-! ## The KDF -/

/-- R180, R181: `HKDF`, for the primitive the model is given and for all parameters. The checks come in order; the output
is the first `OKM_REQ` bytes of `t[1] ∥ t[2] ∥ …`; bytes of `OKM` beyond keep their value. The model's own: `exec` is the meaning
at the default parameters (log entry 9), where the command completes whenever its inputs fit and its request is in range; the
canonical form of `OKM` (log entry 12); the primitive as a free function (log entry 6). -/
def Obligations.HkdfDerivesTheOutput : Prop :=
  decodeWord (word 0x50 0 0 0 0) = .ok .hkdf ∧
  (∀ (k : Parameters) (s : State),
    (¬HkdfInputsFit k.capacities s → commandMeaning k .hkdf s = .next (fails s .bufferLength)) ∧
    (HkdfInputsFit k.capacities s → 8160 < s.okmReq.toNat → commandMeaning k .hkdf s = .next (fails s .outputTooLong)) ∧
    (HkdfInputsFit k.capacities s → s.okmReq.toNat ≤ 8160 → s.okm.wf →
      ∃ t, commandMeaning k .hkdf s = .next t ∧ t = succeeds { s with okm := t.okm, okmLen := s.okmReq } ∧ t.okm.wf ∧
        ∀ off, Memory.read t.okm off =
          if off < s.okmReq.toNat then (block s (off / 32 + 1)).getD (off % 32) 0 else Memory.read s.okm off)) ∧
  (∀ s : State, exec .hkdf s = commandMeaning Config.parameters .hkdf s ∧
    (HkdfInputsFit Config.capacities s → s.okmReq.toNat ≤ 8160 →
      ∃ t, exec .hkdf s = .next t ∧ t = succeeds { s with okm := t.okm, okmLen := s.okmReq }))

/-- R182: for the same inputs, the output for a shorter length is a prefix of the output for a longer one. For all
parameters (R43). -/
def Obligations.HkdfOutputsArePrefixes : Prop :=
  ∀ (k : Parameters) (s : State) (L1 L2 : Word32), HkdfInputsFit k.capacities s → s.okm.wf → L1.toNat ≤ L2.toNat →
    L2.toNat ≤ 8160 →
    ∃ t1 t2, commandMeaning k .hkdf { s with okmReq := L1 } = .next t1 ∧
      commandMeaning k .hkdf { s with okmReq := L2 } = .next t2 ∧ t1.okmLen = L1 ∧ t2.okmLen = L2 ∧
      ∀ off < L1.toNat, Memory.read t1.okm off = Memory.read t2.okm off

/-! ## Rules of the whole machine -/

/-- R205, R206: errors are precise. The state after a failed command is the state before it, except the status and the error
(and the model's own count of the source's answers, for `KEYGEN`, log entry 5). `InternalInvariant` sets `STATUS.FATAL`, no
other error does, and none clears it (R30, R210). For `exec`, and for all parameters. -/
def Obligations.ErrorsArePrecise : Prop :=
  (∀ (i : Instr) (s t : State), exec i s = .next t → LeavesAFailedState s t) ∧
  (∀ (k : Parameters) (i : Instr) (s t : State), commandMeaning k i s = .next t → LeavesAFailedState s t)

/-- R204: the errors each command can raise; a command that raises none leaves `ERR` 0. For `exec`, and for all
parameters. -/
def Obligations.CommandsRaiseOnlyTheirErrors : Prop :=
  (∀ (i : Instr) (s t : State), exec i s = .next t → RaisesOnlyItsErrors i t) ∧
  (∀ (k : Parameters) (i : Instr) (s t : State), commandMeaning k i s = .next t → RaisesOnlyItsErrors i t)

/-- What a command leaves unchanged, for all 18: every integer register but its destination, every point register but its
destination, and `OKM_REQ` (R21, R22, R36, R77). Only `KEYGEN` uses the random source (R217): for every other command the
model's count of draws (log entry 5) is unchanged, and for all 18 the model's lists of the host's accesses and answers are (log
entries 1, 2). For `exec`, and for all parameters. -/
def Obligations.OnlyTheDestinationRegistersChange : Prop :=
  (∀ (i : Instr) (s t : State), exec i s = .next t → KeepsOtherRegisters i s t) ∧
  (∀ (k : Parameters) (i : Instr) (s t : State), commandMeaning k i s = .next t → KeepsOtherRegisters i s t)

/-- R63: which command reaches which buffer. Every byte outside the stored ones reads as before, and every length register
but the stored buffer's is unchanged. For `exec`, and for all parameters. -/
def Obligations.CommandsStoreOnlyToTheirBuffer : Prop :=
  (∀ (i : Instr) (s t : State), (∀ b, (s.buf b).wf) → exec i s = .next t → KeepsOtherBytes i s t) ∧
  (∀ (k : Parameters) (i : Instr) (s t : State), (∀ b, (s.buf b).wf) → commandMeaning k i s = .next t →
    KeepsOtherBytes i s t)

/-- Every step answers a next state, and the step that ends a command leaves the CORE idle (R249). That an idle CORE whose
host makes no access has a next state is log entry 4, and that `HKDF` and `KEYGEN` end rests on log entry 16. For `step`, and
for all parameters. -/
def Obligations.EveryStepAnswersANextState : Prop :=
  (∀ s : State, ∃ t, step s = .next t ∧ (s.running ≠ none → Undisturbed s → t.running = none)) ∧
  (∀ (k : Parameters) (s : State), ∃ t, advance k s = .next t ∧ (s.running ≠ none → Undisturbed s → t.running = none))

/-! ## Invariants -/

/-- R23: every step keeps every point register well-formed: `step`, and the step for all parameters whose curve has no
singular point. -/
def Obligations.PointRegistersStayWellFormed : Prop :=
  (∀ s t : State, (∀ i : PIdx, WellFormed s.pt[i]) → step s = .next t → ∀ i : PIdx, WellFormed t.pt[i]) ∧
  (∀ (k : Parameters) (s t : State), NonSingular k.curve → (∀ i : PIdx, WellFormedOf k.curve s.pt[i]) →
    advance k s = .next t → ∀ i : PIdx, WellFormedOf k.curve t.pt[i])

/-- R23, R22: the host has no write path into the point registers (the accesses: log entry 1). For all parameters. -/
def Obligations.HostCannotWritePoints : Prop :=
  ∀ (k : Parameters) (s t : State) (a : HostAccess) (rest : List HostAccess), s.hostIn = a :: rest →
    (s.running = none ∨ a.whileBusy = true) → a.op ≠ .reset → advance k s = .next t → t.pt = s.pt

/-- R24, R64: every step keeps every buffer's contents canonical and below its capacity, and `OKM_LEN` in range: `step`, with
the default capacities, and the step for all parameters (log entries 9, 12). -/
def Obligations.BuffersStayWithinCapacity : Prop :=
  (∀ s t : State, s.BuffersCanonical Config.capacities → s.OkmLenInRange → step s = .next t →
    t.BuffersCanonical Config.capacities ∧ t.OkmLenInRange) ∧
  (∀ (k : Parameters) (s t : State), s.BuffersCanonical k.capacities → s.OkmLenInRange → advance k s = .next t →
    t.BuffersCanonical k.capacities ∧ t.OkmLenInRange)

/-- R31: every step keeps `ERR.CODE ≠ 0` exactly when `STATUS.ERROR = 1`: `step`, and the step for all parameters. -/
def Obligations.ErrorBitAndCodeAgree : Prop :=
  (∀ s t : State, (s.errWord ≠ 0 ↔ s.error = true) → step s = .next t → (t.errWord ≠ 0 ↔ t.error = true)) ∧
  (∀ (k : Parameters) (s t : State), (s.errWord ≠ 0 ↔ s.error = true) → advance k s = .next t →
    (t.errWord ≠ 0 ↔ t.error = true))

/-- R210: `STATUS.FATAL` is always 0: no step sets it, whatever the state and the random source's answer: `step`, and the
step for all parameters whose curve has prime order. -/
def Obligations.FatalIsNeverSet : Prop :=
  (∀ s t : State, s.fatal = false → step s = .next t → t.fatal = false) ∧
  (∀ (k : Parameters) (s t : State), PrimeOrder k.curve → s.fatal = false → advance k s = .next t → t.fatal = false)

/-- The state after reset is legal, for all parameters: the invariants hold there. -/
def Obligations.ResetStateIsLegal : Prop :=
  (∀ i : PIdx, WellFormed State.reset.pt[i]) ∧ ∀ k : Parameters, State.reset.Legal k

/-! ## The parameters -/

/-- R6, R43: the capacities are a parameter with the bounds and the defaults of R6. Every choice of them within the bounds is
a parameter of the step; `step` and `exec` are the step and the meanings at the defaults (log entry 9), and only `HKDF` among
the commands looks at them (R63). For all parameters the step of a command that runs undisturbed is its meaning (R59, R73; the
host's accesses and the command's end as a step of its own: log entries 1, 3). -/
def Obligations.CapacitiesAreParametersWithDefaults : Prop :=
  (Config.capacities.enc = 128 ∧ Config.capacities.ikm = 256 ∧ Config.capacities.salt = 256 ∧
    Config.capacities.info = 256 ∧ Config.okmCap = 8160) ∧
  (∀ k : Capacities, 65 ≤ k.enc ∧ 32 ≤ k.ikm) ∧
  (∀ enc ikm salt info : Nat, 65 ≤ enc → 32 ≤ ikm →
    ∃ k : Parameters, k.curve = Config.curve ∧ k.capacities.enc = enc ∧ k.capacities.ikm = ikm ∧
      k.capacities.salt = salt ∧ k.capacities.info = info) ∧
  Config.parameters.capacities = Config.capacities ∧
  (∀ s : State, step s = advance Config.parameters s) ∧
  (∀ (i : Instr) (s : State), exec i s = commandMeaning Config.parameters i s) ∧
  (∀ (k k' : Parameters) (i : Instr) (s : State), k.curve = k'.curve → i ≠ .hkdf →
    commandMeaning k i s = commandMeaning k' i s) ∧
  (∀ (k : Parameters) (s : State) (w : Word32) (i : Instr), s.running = some w → Undisturbed s → decodeWord w = .ok i →
    advance k s = commandMeaning k i s)

/-- R20, R43: the curve record is a parameter. The default has the values of R7 (log entry 8), which `step` and `exec` take
(log entry 9). The records taken are exactly those log entry 19 lists: `p` a prime with `p ≡ 3 (mod 4)` (U2), `n` prime and `G`
on the curve (D13), `p`, `a`, `b` and `n` of 256 bits (R38); that the order of `G` is `n` is no condition. `PINF`, `ENCODE` and
`HKDF` do not look at the record. -/
def Obligations.CurveIsAParameterWithDefault : Prop :=
  (Config.parameters.curve.p = 2 ^ 256 - 2 ^ 224 + 2 ^ 192 + 2 ^ 96 - 1 ∧
    Config.parameters.curve.a = Config.parameters.curve.p - 3 ∧
    Config.parameters.curve.b = 0x5AC635D8AA3A93E7B3EBBD55769886BC651D06B0CC53B0F63BCE3C3E27D2604B ∧
    Config.parameters.curve.gx = 0x6B17D1F2E12C4247F8BCE6E563A440F277037D812DEB33A0F4A13945D898C296 ∧
    Config.parameters.curve.gy = 0x4FE342E2FE1A7F9B8EE7EB4A7C0F9E162BCE33576B315ECECBB6406837BF51F5 ∧
    Config.parameters.curve.n = 0xFFFFFFFF00000000FFFFFFFFFFFFFFFFBCE6FAADA7179E84F3B9CAC2FC632551) ∧
  (∀ (c : Curve) (caps : Capacities), (∃ k : Parameters, k.curve = c ∧ k.capacities = caps) ↔
    c.p.Prime ∧ c.p % 4 = 3 ∧ c.n.Prime ∧ c.gx < c.p ∧ c.gy < c.p ∧ OnCurveOf c c.gx c.gy ∧
      c.p < 2 ^ 256 ∧ c.a < 2 ^ 256 ∧ c.b < 2 ^ 256 ∧ c.n < 2 ^ 256) ∧
  (∀ (k k' : Parameters) (i : Instr) (s : State), k.capacities = k'.capacities →
    ((∃ pd, i = .pinf pd) ∨ (∃ ps1 c, i = .encode ps1 c) ∨ i = .hkdf) → commandMeaning k i s = commandMeaning k' i s)

/-- R90 to R96, R162, R163: the field commands for all parameters, so on every curve (R43). -/
def Obligations.FieldCommandsOnEveryCurve : Prop :=
  ∀ (k : Parameters) (rd rs1 rs2 : RIdx) (s : State) (x y q : Nat), q = k.curve.p → x = s.r[rs1].toNat →
    y = s.r[rs2].toNat →
    (x < q → y < q →
      commandMeaning k (.fadd rd rs1 rs2) s = .next (writesNumber s rd ((x + y) % q)) ∧
      commandMeaning k (.fsub rd rs1 rs2) s = .next (writesNumber s rd (if y ≤ x then x - y else x + q - y)) ∧
      commandMeaning k (.fmul rd rs1 rs2) s = .next (writesNumber s rd (x * y % q))) ∧
    (q ≤ x ∨ q ≤ y →
      commandMeaning k (.fadd rd rs1 rs2) s = .next (fails s .operandRange) ∧
      commandMeaning k (.fsub rd rs1 rs2) s = .next (fails s .operandRange) ∧
      commandMeaning k (.fmul rd rs1 rs2) s = .next (fails s .operandRange)) ∧
    (x < q → x ≠ 0 → ∃ v, v = x ^ (q - 2) % q ∧ x * v % q = 1 ∧
      commandMeaning k (.finv rd rs1) s = .next (writesNumber s rd v)) ∧
    (x = 0 → commandMeaning k (.finv rd rs1) s = .next (fails s .inverseOfZero)) ∧
    (x < q → (∃ u, u * u % q = x) → ∃ t, t = x ^ ((q + 1) / 4) % q ∧ t * t % q = x ∧
      commandMeaning k (.fsqrt rd rs1) s = .next (writesNumber s rd t)) ∧
    (x < q → (¬∃ u, u * u % q = x) → commandMeaning k (.fsqrt rd rs1) s = .next (fails s .noSquareRoot)) ∧
    (q ≤ x → commandMeaning k (.finv rd rs1) s = .next (fails s .operandRange) ∧
      commandMeaning k (.fsqrt rd rs1) s = .next (fails s .operandRange))

/-- R111 to R124: the point commands for all parameters (R43): what `PBASE`, `PSET`, `ONCURVE` and `PNEG` (of infinity, and of a
well-formed pair) do on every curve, and what `PADD` and `PDBL` do, with the group laws (R125), on every curve with no singular point. -/
def Obligations.PointCommandsOnEveryCurve : Prop :=
  (∀ (k : Parameters) (pd : PIdx) (s : State),
    commandMeaning k (.pbase pd) s = .next (writesThePoint s pd (pointOf k.curve.gx k.curve.gy)) ∧
    WellFormedOf k.curve (pointOf k.curve.gx k.curve.gy)) ∧
  (∀ (k : Parameters) (pd : PIdx) (rd rs1 rs2 : RIdx) (s : State),
    (s.r[rs1].toNat < k.curve.p → s.r[rs2].toNat < k.curve.p →
      commandMeaning k (.pset pd rs1 rs2) s = .next (if OnCurveOf k.curve s.r[rs1].toNat s.r[rs2].toNat
        then writesThePoint s pd (.aff s.r[rs1] s.r[rs2]) else fails s .pointNotOnCurve) ∧
      commandMeaning k (.oncurve rd rs1 rs2) s = .next (writesNumber s rd
        (if OnCurveOf k.curve s.r[rs1].toNat s.r[rs2].toNat then 1 else 0))) ∧
    (k.curve.p ≤ s.r[rs1].toNat ∨ k.curve.p ≤ s.r[rs2].toNat →
      commandMeaning k (.pset pd rs1 rs2) s = .next (fails s .operandRange) ∧
      commandMeaning k (.oncurve rd rs1 rs2) s = .next (fails s .operandRange))) ∧
  (∀ (k : Parameters) (pd ps1 : PIdx) (s : State), s.pt[ps1] = .inf →
    commandMeaning k (.pneg pd ps1) s = .next (writesThePoint s pd .inf)) ∧
  (∀ (k : Parameters) (pd ps1 : PIdx) (s : State) (x y : Word256), s.pt[ps1] = .aff x y →
    WellFormedOf k.curve (.aff x y) →
    ∃ y' : Word256, y'.toNat = (if y.toNat = 0 then 0 else k.curve.p - y.toNat) ∧
      WellFormedOf k.curve (.aff x y') ∧ commandMeaning k (.pneg pd ps1) s = .next (writesThePoint s pd (.aff x y'))) ∧
  (∀ (k : Parameters) (pd ps1 ps2 : PIdx) (s : State), NonSingular k.curve → WellFormedOf k.curve s.pt[ps1] →
    WellFormedOf k.curve s.pt[ps2] →
    (∃ Q, IsSumOf k.curve s.pt[ps1] s.pt[ps2] Q ∧ WellFormedOf k.curve Q ∧
      commandMeaning k (.padd pd ps1 ps2) s = .next (writesThePoint s pd Q)) ∧
    commandMeaning k (.pdbl pd ps1) s = commandMeaning k (.padd pd ps1 ps1) s) ∧
  (∀ k : Parameters, NonSingular k.curve → GroupLaws k.curve)

/-- R140 to R142, R150 to R153: `SMUL`, `KEYGEN` and `ECDH` for all parameters whose curve has prime order (R7, R43): the
multiple, a key pair for the step's draw and for every draw (the count of draws: log entry 5), the shared secret or its
errors. -/
def Obligations.ScalarCommandsOnEveryCurve : Prop :=
  ∀ k : Parameters, PrimeOrder k.curve →
    (∀ (pd : PIdx) (rs1 : RIdx) (ps2 : PIdx) (s : State), WellFormedOf k.curve s.pt[ps2] →
      commandMeaning k (.smul pd rs1 ps2) s
        = .next (writesThePoint s pd (multipleOf k.curve s.r[rs1].toNat s.pt[ps2])) ∧
      WellFormedOf k.curve (multipleOf k.curve s.r[rs1].toNat s.pt[ps2])) ∧
    (∀ (rd : RIdx) (pd : PIdx) (s : State), ∃ d, 1 ≤ d ∧ d < k.curve.n ∧
      multipleOf k.curve d (pointOf k.curve.gx k.curve.gy) ≠ .inf ∧
      commandMeaning k (.keygen rd pd) s = .next (succeeds { s with
        r := s.r.set rd (BitVec.ofNat 256 d),
        pt := s.pt.set pd (multipleOf k.curve d (pointOf k.curve.gx k.curve.gy)),
        draws := s.draws + 1 })) ∧
    (∀ (rd : RIdx) (pd : PIdx) (s : State) (d : Nat), 1 ≤ d → d < k.curve.n →
      keygenResult k.curve d rd pd s = .ok { s with
        r := s.r.set rd (BitVec.ofNat 256 d),
        pt := s.pt.set pd (multipleOf k.curve d (pointOf k.curve.gx k.curve.gy)) }) ∧
    (∀ (rs1 : RIdx) (ps2 : PIdx) (s : State),
      (s.pt[ps2] = .inf → commandMeaning k (.ecdh rs1 ps2) s = .next (fails s .infinityNotAllowed)) ∧
      (∀ x y, s.pt[ps2] = .aff x y → ¬OnCurveOf k.curve x.toNat y.toNat →
        commandMeaning k (.ecdh rs1 ps2) s = .next (fails s .pointNotOnCurve))) ∧
    (∀ (rs1 : RIdx) (ps2 : PIdx) (s : State), s.pt[ps2] ≠ .inf → WellFormedOf k.curve s.pt[ps2] → s.ikm.wf →
      (s.r[rs1].toNat % k.curve.n = 0 →
        commandMeaning k (.ecdh rs1 ps2) s = .next (fails s .degenerateSharedSecret)) ∧
      (s.r[rs1].toNat % k.curve.n ≠ 0 →
        ∃ (x y : Word256) (t : State), multipleOf k.curve s.r[rs1].toNat s.pt[ps2] = .aff x y ∧
          commandMeaning k (.ecdh rs1 ps2) s = .next t ∧ t = succeeds { s with ikm := t.ikm, ikmLen := 32 } ∧ t.ikm.wf ∧
          ∀ off, Memory.read t.ikm off = if off < 32 then bigEndian x.toNat off else Memory.read s.ikm off))

/-- R164 to R167: `DECODE` for all parameters, so on every curve (R43): the point a string of length 33 or 65 stands for, and
`InvalidEncoding` for every other string; and the round trip of R166. -/
def Obligations.CodecOnEveryCurve : Prop :=
  (∀ (k : Parameters) (pd : PIdx) (s : State),
    (s.encLen.toNat ≠ 33 → s.encLen.toNat ≠ 65 →
      commandMeaning k (.decode pd) s = .next (fails s .invalidEncoding)) ∧
    (s.encLen.toNat = 65 → commandMeaning k (.decode pd) s = .next (
      if Memory.read s.enc 0 = 0x04 ∧ integerAt s.enc 1 < k.curve.p ∧ integerAt s.enc 33 < k.curve.p ∧
        OnCurveOf k.curve (integerAt s.enc 1) (integerAt s.enc 33)
      then writesThePoint s pd (pointOf (integerAt s.enc 1) (integerAt s.enc 33)) else fails s .invalidEncoding)) ∧
    (s.encLen.toNat = 33 →
      (∀ y, (Memory.read s.enc 0 = 0x02 ∧ y % 2 = 0 ∨ Memory.read s.enc 0 = 0x03 ∧ y % 2 = 1) →
          integerAt s.enc 1 < k.curve.p → y < k.curve.p → OnCurveOf k.curve (integerAt s.enc 1) y →
        commandMeaning k (.decode pd) s = .next (writesThePoint s pd (pointOf (integerAt s.enc 1) y))) ∧
      ((¬∃ y, (Memory.read s.enc 0 = 0x02 ∧ y % 2 = 0 ∨ Memory.read s.enc 0 = 0x03 ∧ y % 2 = 1) ∧
          integerAt s.enc 1 < k.curve.p ∧ y < k.curve.p ∧ OnCurveOf k.curve (integerAt s.enc 1) y) →
        commandMeaning k (.decode pd) s = .next (fails s .invalidEncoding)))) ∧
  (∀ (k : Parameters) (ps pd : PIdx) (c : Bool) (s : State), WellFormedOf k.curve s.pt[ps] → s.pt[ps] ≠ .inf →
    s.enc.wf →
    ∃ t u, commandMeaning k (.encode ps c) s = .next t ∧ commandMeaning k (.decode pd) t = .next u ∧
      u.error = false ∧ u.pt[pd] = s.pt[ps])
end

