-- ==== Sys2Proof/Laws/Arith.lean ====
section
/-! SUPPORT. Laws of the numbers of `Machine/Ops.lean` and `Machine/FieldUnit.lean`: repeated squaring is below the modulus, a
residue is below the modulus and congruent to its argument. -/

namespace Sys2Proof.Machine

/-- `bitlen(v)` is the least `L` with `v < 2^L` (R9). -/
theorem bitlen_le_of_lt_two_pow {v L : Nat} (h : v < 2 ^ L) : bitlen v ≤ L := by
  unfold bitlen
  split
  · omega
  · exact Nat.succ_le_of_lt ((Nat.log2_lt (by assumption)).2 h)

theorem modexp_lt (g e : Nat) {m : Nat} (hm : 0 < m) : modexp g e m < m := by
  rw [modexp_eq]; exact Nat.mod_lt _ hm

section residue
variable {c : Curve}

theorem residue_cast (hp : 0 < c.p) (v : Int) : ((residue c v : Nat) : Int) = v % (c.p : Int) :=
  Int.toNat_of_nonneg (Int.emod_nonneg _ (by omega))

theorem residue_lt (hp : 0 < c.p) (v : Int) : residue c v < c.p := by
  have h := residue_cast hp v
  have h2 := Int.emod_lt_of_pos v (show (0 : Int) < c.p by omega)
  omega

/-- Two exact integers have the same residue exactly when they are equal mod `p`. -/
theorem residue_eq_iff (hp : 0 < c.p) (v w : Int) : residue c v = residue c w ↔ v ≡ w [ZMOD c.p] := by
  have h1 := residue_cast hp v
  have h2 := residue_cast hp w
  unfold Int.ModEq
  omega

theorem residue_eq_zero_iff (hp : 0 < c.p) (v : Int) : residue c v = 0 ↔ (c.p : Int) ∣ v := by
  have h1 := residue_cast hp v
  rw [Int.dvd_iff_emod_eq_zero]
  omega

/-- The residue of a natural number below the modulus is the number. -/
theorem residue_natCast_of_lt {v : Nat} (h : v < c.p) : residue c (v : Int) = v := by
  have h1 := residue_cast (c := c) (by omega) (v : Int)
  rw [Int.emod_eq_of_lt (by omega) (by omega)] at h1
  exact_mod_cast h1

/-- The residue of a natural number is its remainder. -/
theorem residue_natCast (hp : 0 < c.p) (v : Nat) : residue c (v : Int) = v % c.p := by
  have h1 := residue_cast hp (v : Int)
  exact_mod_cast h1

/-- Seen in the integers mod `p`, a residue is its argument. -/
theorem residue_zmod (hp : 0 < c.p) (v : Int) : ((residue c v : Nat) : ZMod c.p) = (v : ZMod c.p) := by
  have h := congrArg (Int.cast : Int → ZMod c.p) (residue_cast hp v)
  rw [Int.cast_natCast] at h
  rw [h]
  exact (ZMod.intCast_eq_intCast_iff_dvd_sub _ _ _).2
    ⟨v / c.p, by have := Int.mul_ediv_add_emod v c.p; linarith⟩

/-- A residue fits a register when the modulus does. -/
theorem fieldWord_toNat (hp : 0 < c.p) (hw : c.p < 2 ^ 256) (v : Int) :
    (fieldWord c v).toNat = residue c v := by
  have := residue_lt hp v
  simp only [fieldWord, BitVec.toNat_ofNat]
  exact Nat.mod_eq_of_lt (by omega)

end residue

/-- `f_inv` of a nonzero element is below the modulus. -/
theorem fInv_lt {c : Curve} (hp : 0 < c.p) (x : Nat) : fInv c x < c.p := by
  unfold fInv
  split
  · exact Nat.mod_lt _ hp
  · exact modexp_lt _ _ hp

theorem fInv_of_ne_zero {c : Curve} {x : Nat} (h : x ≠ 0) : fInv c x = x ^ (c.p - 2) % c.p := by
  rw [fInv, if_neg h, modexp_eq]

end Sys2Proof.Machine
end

