-- ==== Sys2Proof/Laws/Bytes.lean ====
section
/-! SUPPORT. The laws of byte strings: `I2OSP32` and `OS2IP` are inverse (R10), and the lengths of what the commands
deliver (R160, R180). -/

namespace Sys2Proof.Machine

@[simp] theorem i2osp32_length (v : Word256) : (i2osp32 v).length = 32 := by simp [i2osp32]

/-- `OS2IP` of a string with one more byte at its end. -/
theorem os2ip_append_singleton (s : List Byte) (b : Byte) : os2ip (s ++ [b]) = os2ip s * 256 + b.toNat := by
  simp [os2ip]

/-- The leading `k` bytes of `I2OSP32(v)` are the leading `8k` bits of `v`. -/
theorem os2ip_leading (v : Word256) : ∀ k ≤ 32,
    os2ip ((List.range k).map fun i => v.extractLsb' (248 - 8 * i) 8) = v.toNat / 2 ^ (256 - 8 * k)
  | 0, _ => by simp [os2ip, Nat.div_eq_of_lt v.isLt]
  | k + 1, hk => by
    rw [List.range_succ, List.map_append, List.map_singleton, os2ip_append_singleton,
      os2ip_leading v k (by omega), BitVec.extractLsb'_toNat, Nat.shiftRight_eq_div_pow,
      show 256 - 8 * k = (248 - 8 * k) + 8 by omega, show 256 - 8 * (k + 1) = 248 - 8 * k by omega,
      pow_add, ← Nat.div_div_eq_div_mul]
    omega

/-- `OS2IP(I2OSP32(v)) = v` (R10). -/
@[simp] theorem os2ip_i2osp32 (v : Word256) : os2ip (i2osp32 v) = v.toNat := by
  have := os2ip_leading v 32 (by omega)
  simpa [i2osp32] using this

theorem encodePoint_length {P : Point} {compressed : Bool} {bytes : List Byte}
    (h : encodePoint P compressed = .ok bytes) : bytes.length = if compressed then 33 else 65 := by
  cases P with
  | inf => simp [encodePoint] at h
  | aff x y => cases compressed <;> simp [encodePoint] at h <;> subst h <;> simp

theorem sharedSecret_length {c : Curve} {k : Nat} {Q : Point} {bytes : List Byte}
    (h : sharedSecret c k Q = .ok bytes) : bytes.length = 32 := by
  unfold sharedSecret at h
  split_ifs at h
  split at h
  · cases h
  · cases h; simp

theorem hkdfExpand_length (hmac : Hmac) (prk info : List Byte) : ∀ (blocks i : Nat) (prev : List Byte),
    (hkdfExpand hmac prk info blocks i prev).length = 32 * blocks
  | 0, _, _ => rfl
  | blocks + 1, i, prev => by
    simp only [hkdfExpand, List.length_append, Vector.length_toList, hkdfExpand_length hmac prk info blocks (i + 1)]
    omega

/-- `hkdf` delivers as many bytes as it is asked for (R180). -/
theorem hkdf_length {hmac : Hmac} {ikm salt info : List Byte} {L : Nat} {bytes : List Byte}
    (h : hkdf hmac ikm salt info L = .ok bytes) : bytes.length = L := by
  unfold hkdf at h
  split_ifs at h
  cases h
  rw [List.length_take, hkdfExpand_length]
  omega

/-- The output for fewer blocks is the beginning of the output for more (R182). -/
theorem hkdfExpand_take (hmac : Hmac) (prk info : List Byte) : ∀ (blocks more i : Nat) (prev : List Byte),
    (hkdfExpand hmac prk info (blocks + more) i prev).take (32 * blocks) = hkdfExpand hmac prk info blocks i prev
  | 0, _, _, _ => by simp [hkdfExpand]
  | blocks + 1, more, i, prev => by
    have ih := hkdfExpand_take hmac prk info blocks more (i + 1)
      (hmac prk (prev ++ info ++ [byteOf i])).toList
    rw [show blocks + 1 + more = (blocks + more) + 1 by omega]
    simp only [hkdfExpand]
    rw [List.take_append, Vector.length_toList, show 32 * (blocks + 1) - 32 = 32 * blocks by omega, ih]
    congr 1
    rw [List.take_of_length_le]
    rw [Vector.length_toList]
    omega

end Sys2Proof.Machine
end

