-- ==== Sys2Proof/Laws/Group.lean ====
section
/-! SUPPORT. The point functions of `Machine/PointUnit.lean` are the group law of the curve: on well-formed Points they
agree with Mathlib's group of points of a Weierstrass curve over the integers mod `p`. Closure, commutativity and
associativity (R114 (d), R125), which the spec states without proof, follow from it. -/

namespace Sys2Proof.Machine

/-- What the point functions need of a curve record: an odd prime modulus that fits a register, and a nonzero
discriminant. -/
structure CurveSound (c : Curve) : Prop where
  odd : 2 < c.p
  fits : c.p < 2 ^ 256
  disc : ((4 * c.a ^ 3 + 27 * c.b ^ 2 : Nat) : ZMod c.p) ≠ 0

theorem CurveSound.pos {c : Curve} (hc : CurveSound c) : 0 < c.p := by have := hc.odd; omega

/-- The curve of a record, as Mathlib writes it. -/
def weierstrass (c : Curve) : WeierstrassCurve.Affine (ZMod c.p) where
  a₁ := 0
  a₂ := 0
  a₃ := 0
  a₄ := c.a
  a₆ := c.b

section
variable {c : Curve}

theorem cast_eq_cast_of_lt {x y : Nat} (hx : x < c.p) (hy : y < c.p) :
    ((x : ZMod c.p) = y) ↔ x = y := by
  rw [ZMod.natCast_eq_natCast_iff', Nat.mod_eq_of_lt hx, Nat.mod_eq_of_lt hy]

theorem cast_eq_zero_of_lt {x : Nat} (hx : x < c.p) : ((x : ZMod c.p) = 0) ↔ x = 0 := by
  have h := cast_eq_cast_of_lt (c := c) hx (y := 0) (by omega)
  simpa using h

theorem word_eq_of_cast {x y : Word256} (hx : x.toNat < c.p) (hy : y.toNat < c.p)
    (h : ((x.toNat : Nat) : ZMod c.p) = (y.toNat : Nat)) : x = y :=
  BitVec.eq_of_toNat_eq ((cast_eq_cast_of_lt hx hy).1 h)

/-- The model's curve test is the curve equation over the integers mod `p` (R111). -/
theorem onCurveXY_iff (hc : CurveSound c) (x y : Nat) :
    onCurveXY c x y = true ↔ (weierstrass c).Equation (x : ZMod c.p) (y : ZMod c.p) := by
  rw [WeierstrassCurve.Affine.equation_iff, onCurveXY, beq_iff_eq, residue_eq_zero_iff hc.pos,
    ← ZMod.intCast_zmod_eq_zero_iff_dvd]
  simp only [weierstrass]
  push_cast
  constructor <;> intro h <;> linear_combination h

theorem weierstrass_disc (hc : CurveSound c) [Fact c.p.Prime] : (weierstrass c).Δ ≠ 0 := by
  have h2 : (2 : ZMod c.p) ≠ 0 := by
    have := (cast_eq_zero_of_lt (c := c) (x := 2) hc.odd).not.2 (by norm_num)
    simpa using this
  have hd := hc.disc
  have : (weierstrass c).Δ = -(2 ^ 4 * ((4 * c.a ^ 3 + 27 * c.b ^ 2 : Nat) : ZMod c.p)) := by
    simp only [WeierstrassCurve.Δ, WeierstrassCurve.b₂, WeierstrassCurve.b₄, WeierstrassCurve.b₆,
      WeierstrassCurve.b₈, weierstrass]
    push_cast
    ring
  rw [this]
  exact neg_ne_zero.2 (mul_ne_zero (pow_ne_zero _ h2) hd)

theorem wf_aff_iff {x y : Word256} :
    Point.wf c (.aff x y) = true ↔ x.toNat < c.p ∧ y.toNat < c.p ∧ onCurveXY c x.toNat y.toNat = true := by
  simp [Point.wf, and_assoc]

variable [Fact c.p.Prime]

theorem nonsingular_of_wf (hc : CurveSound c) {x y : Word256} (h : Point.wf c (.aff x y) = true) :
    (weierstrass c).Nonsingular (x.toNat : ZMod c.p) (y.toNat : ZMod c.p) :=
  (WeierstrassCurve.Affine.equation_iff_nonsingular_of_Δ_ne_zero (weierstrass_disc hc)).1
    ((onCurveXY_iff hc _ _).1 (wf_aff_iff.1 h).2.2)

/-- A Point as an element of the group. -/
noncomputable def groupPoint (c : Curve) [Fact c.p.Prime] : Point → (weierstrass c).Point
  | .inf => 0
  | .aff x y =>
    open Classical in
    if h : (weierstrass c).Nonsingular (x.toNat : ZMod c.p) (y.toNat : ZMod c.p) then .some _ _ h else 0

@[simp] theorem groupPoint_inf : groupPoint c .inf = 0 := rfl

theorem groupPoint_aff {x y : Word256}
    (h : (weierstrass c).Nonsingular (x.toNat : ZMod c.p) (y.toNat : ZMod c.p)) :
    groupPoint c (.aff x y) = .some _ _ h := by
  simp only [groupPoint]; exact dif_pos h

/-- Equal group elements come from equal well-formed Points. -/
theorem groupPoint_injective (hc : CurveSound c) {P Q : Point} (hP : P.wf c = true) (hQ : Q.wf c = true)
    (h : groupPoint c P = groupPoint c Q) : P = Q := by
  cases P with
  | inf =>
    cases Q with
    | inf => rfl
    | aff x y =>
      rw [groupPoint_inf, groupPoint_aff (nonsingular_of_wf hc hQ)] at h
      exact absurd h.symm (WeierstrassCurve.Affine.Point.some_ne_zero _)
  | aff x y =>
    cases Q with
    | inf =>
      rw [groupPoint_inf, groupPoint_aff (nonsingular_of_wf hc hP)] at h
      exact absurd h (WeierstrassCurve.Affine.Point.some_ne_zero _)
    | aff x' y' =>
      rw [groupPoint_aff (nonsingular_of_wf hc hP), groupPoint_aff (nonsingular_of_wf hc hQ),
        WeierstrassCurve.Affine.Point.some.injEq] at h
      have h1 := wf_aff_iff.1 hP
      have h2 := wf_aff_iff.1 hQ
      rw [word_eq_of_cast h1.1 h2.1 h.1, word_eq_of_cast h1.2.1 h2.2.1 h.2]

/-- An affine point whose coordinates are, mod `p`, those of a group element is well-formed and stands for it. -/
theorem affine_of_group (hc : CurveSound c) {X Y : Int} {x y : ZMod c.p}
    (h : (weierstrass c).Nonsingular x y) (hX : (X : ZMod c.p) = x) (hY : (Y : ZMod c.p) = y) :
    (affine c X Y).wf c = true ∧ groupPoint c (affine c X Y) = .some x y h := by
  subst hX hY
  have hx : (((fieldWord c X).toNat : Nat) : ZMod c.p) = (X : ZMod c.p) := by
    rw [fieldWord_toNat hc.pos hc.fits, residue_zmod hc.pos]
  have hy : (((fieldWord c Y).toNat : Nat) : ZMod c.p) = (Y : ZMod c.p) := by
    rw [fieldWord_toNat hc.pos hc.fits, residue_zmod hc.pos]
  have hn : (weierstrass c).Nonsingular (((fieldWord c X).toNat : Nat) : ZMod c.p) ((fieldWord c Y).toNat : Nat) := by
    rw [hx, hy]; exact h
  constructor
  · rw [affine, wf_aff_iff, fieldWord_toNat hc.pos hc.fits, fieldWord_toNat hc.pos hc.fits]
    refine ⟨residue_lt hc.pos _, residue_lt hc.pos _, ?_⟩
    rw [onCurveXY_iff hc, residue_zmod hc.pos, residue_zmod hc.pos]
    exact h.1
  · rw [affine, groupPoint_aff hn, WeierstrassCurve.Affine.Point.some.injEq]
    exact ⟨hx, hy⟩

/-- `f_inv` is the inverse in the field of integers mod `p` (R95). -/
theorem fInv_zmod {x : Nat} (h : (x : ZMod c.p) ≠ 0) :
    ((fInv c x : Nat) : ZMod c.p) = (x : ZMod c.p)⁻¹ := by
  have h0 : x ≠ 0 := by rintro rfl; simp at h
  have hp : 2 ≤ c.p := (Fact.out : c.p.Prime).two_le
  rw [fInv_of_ne_zero h0, ZMod.natCast_mod, Nat.cast_pow]
  refine eq_inv_of_mul_eq_one_left ?_
  rw [← pow_succ, show c.p - 2 + 1 = c.p - 1 by omega]
  exact ZMod.pow_card_sub_one_eq_one h

/-- The negator is the group's negation (R112). -/
theorem groupPoint_neg (hc : CurveSound c) {P : Point} (hP : P.wf c = true) :
    (ptNeg c P).wf c = true ∧ groupPoint c (ptNeg c P) = -groupPoint c P := by
  cases P with
  | inf => exact ⟨rfl, by simp [ptNeg]⟩
  | aff x y =>
    have h := nonsingular_of_wf hc hP
    have h1 := wf_aff_iff.1 hP
    have key := affine_of_group hc (X := x.toNat) (Y := 0 - (y.toNat : Int))
      ((WeierstrassCurve.Affine.nonsingular_neg _ _).2 h) (by push_cast; rfl)
      (by simp [WeierstrassCurve.Affine.negY, weierstrass])
    have hx : fieldWord c (x.toNat : Int) = x := by
      apply BitVec.eq_of_toNat_eq
      rw [fieldWord_toNat hc.pos hc.fits, residue_natCast_of_lt h1.1]
    rw [affine, hx] at key
    rw [groupPoint_aff h, WeierstrassCurve.Affine.Point.neg_some]
    exact key

/-- The third point of a line whose slope is, mod `p`, the group's slope is the group's sum (R113). -/
theorem thirdPoint_of_slope (hc : CurveSound c) {x1 y1 x2 y2 : Word256} {m : Int}
    (h1 : Point.wf c (.aff x1 y1) = true) (h2 : Point.wf c (.aff x2 y2) = true)
    (hne : ¬(((x1.toNat : Nat) : ZMod c.p) = (x2.toNat : Nat) ∧
      ((y1.toNat : Nat) : ZMod c.p) = (weierstrass c).negY (x2.toNat : Nat) (y2.toNat : Nat)))
    (hm : (m : ZMod c.p) = (weierstrass c).slope (x1.toNat : Nat) (x2.toNat : Nat) (y1.toNat : Nat) (y2.toNat : Nat)) :
    (thirdPoint c m x1.toNat y1.toNat x2.toNat).wf c = true ∧
      groupPoint c (thirdPoint c m x1.toNat y1.toNat x2.toNat)
        = groupPoint c (.aff x1 y1) + groupPoint c (.aff x2 y2) := by
  have n1 := nonsingular_of_wf hc h1
  have n2 := nonsingular_of_wf hc h2
  rw [groupPoint_aff n1, groupPoint_aff n2, WeierstrassCurve.Affine.Point.add_some hne]
  have hX : (((residue c (m * m - x1.toNat - x2.toNat) : Nat) : Int) : ZMod c.p)
      = (weierstrass c).addX (x1.toNat : Nat) (x2.toNat : Nat)
        ((weierstrass c).slope (x1.toNat : Nat) (x2.toNat : Nat) (y1.toNat : Nat) (y2.toNat : Nat)) := by
    rw [Int.cast_natCast, residue_zmod hc.pos, ← hm]
    simp only [WeierstrassCurve.Affine.addX, weierstrass]
    push_cast
    ring
  refine affine_of_group hc _ hX ?_
  push_cast at hX ⊢
  rw [hX, hm]
  simp only [WeierstrassCurve.Affine.addY, WeierstrassCurve.Affine.negY, WeierstrassCurve.Affine.negAddY,
    weierstrass]
  ring

theorem two_ne_zero_zmod (hc : CurveSound c) : (2 : ZMod c.p) ≠ 0 := by
  have := (cast_eq_zero_of_lt (c := c) (x := 2) hc.odd).not.2 (by norm_num)
  simpa using this

/-- The tangent's slope is the group's slope of a point with itself, when `y ≠ 0` (R113 case 4, R115). -/
theorem tangentSlope_zmod (hc : CurveSound c) {x y : Word256} (hy : ((y.toNat : Nat) : ZMod c.p) ≠ 0) :
    ((tangentSlope c x.toNat y.toNat : Int) : ZMod c.p)
      = (weierstrass c).slope (x.toNat : Nat) (x.toNat : Nat) (y.toNat : Nat) (y.toNat : Nat) := by
  have h2 := two_ne_zero_zmod hc
  have hcast : ((residue c (2 * (y.toNat : Int)) : Nat) : ZMod c.p) = 2 * (y.toNat : Nat) := by
    rw [residue_zmod hc.pos]; push_cast; rfl
  have hne : ((y.toNat : Nat) : ZMod c.p) ≠ (weierstrass c).negY (x.toNat : Nat) (y.toNat : Nat) := by
    simp only [WeierstrassCurve.Affine.negY, weierstrass]
    intro h
    exact mul_ne_zero h2 hy (by linear_combination h)
  rw [WeierstrassCurve.Affine.slope_of_Y_ne rfl hne, tangentSlope, Int.cast_natCast, residue_zmod hc.pos]
  push_cast
  rw [fInv_zmod (by rw [hcast]; exact mul_ne_zero h2 hy), hcast, ← div_eq_mul_inv]
  simp only [WeierstrassCurve.Affine.negY, weierstrass]
  congr 1 <;> ring

/-- The chord's slope is the group's slope of points with different abscissas (R113 case 5). -/
theorem chordSlope_zmod (hc : CurveSound c) {x1 y1 x2 y2 : Word256}
    (hx : ((x1.toNat : Nat) : ZMod c.p) ≠ (x2.toNat : Nat)) :
    ((chordSlope c x1.toNat y1.toNat x2.toNat y2.toNat : Int) : ZMod c.p)
      = (weierstrass c).slope (x1.toNat : Nat) (x2.toNat : Nat) (y1.toNat : Nat) (y2.toNat : Nat) := by
  have hcast : ((residue c ((x2.toNat : Int) - x1.toNat) : Nat) : ZMod c.p)
      = (x2.toNat : Nat) - (x1.toNat : Nat) := by
    rw [residue_zmod hc.pos]; push_cast; rfl
  rw [WeierstrassCurve.Affine.slope_of_X_ne hx, chordSlope, Int.cast_natCast, residue_zmod hc.pos]
  push_cast
  rw [fInv_zmod (by rw [hcast]; exact sub_ne_zero.2 hx.symm), hcast, ← div_eq_mul_inv,
    ← neg_sub ((y1.toNat : Nat) : ZMod c.p), ← neg_sub ((x1.toNat : Nat) : ZMod c.p), neg_div_neg_eq]

/-- The two points are an inverse pair exactly when `(y1 + y2) mod p = 0` (R113 case 3). -/
theorem inversePair_iff (x2 : ZMod c.p) (y1 y2 : Nat) :
    (y1 + y2) % c.p = 0 ↔ (y1 : ZMod c.p) = (weierstrass c).negY x2 y2 := by
  rw [← Nat.dvd_iff_mod_eq_zero, ← ZMod.natCast_eq_zero_iff]
  simp only [WeierstrassCurve.Affine.negY, weierstrass]
  push_cast
  constructor <;> intro h <;> linear_combination h

/-- The doubler is the group's doubling (R115). -/
theorem groupPoint_dbl (hc : CurveSound c) {P : Point} (hP : P.wf c = true) :
    (ptDbl c P).wf c = true ∧ groupPoint c (ptDbl c P) = groupPoint c P + groupPoint c P := by
  cases P with
  | inf => exact ⟨rfl, by simp [ptDbl]⟩
  | aff x y =>
    have h1 := wf_aff_iff.1 hP
    have h2 := two_ne_zero_zmod hc
    by_cases hy : y.toNat = 0
    · have hsum : (y.toNat + y.toNat) % c.p = 0 := by simp [hy]
      have hn := nonsingular_of_wf hc hP
      refine ⟨by simp [ptDbl, hy, Point.wf], ?_⟩
      rw [groupPoint_aff hn,
        WeierstrassCurve.Affine.Point.add_self_of_Y_eq ((inversePair_iff _ _ _).1 hsum)]
      simp [ptDbl, hy]
    · have hy' : ((y.toNat : Nat) : ZMod c.p) ≠ 0 := (cast_eq_zero_of_lt h1.2.1).not.2 hy
      have hmod : y.toNat % c.p ≠ 0 := by rwa [Nat.mod_eq_of_lt h1.2.1]
      have hne : ((y.toNat : Nat) : ZMod c.p) ≠ (weierstrass c).negY (x.toNat : Nat) (y.toNat : Nat) := by
        simp only [WeierstrassCurve.Affine.negY, weierstrass]
        intro h
        exact mul_ne_zero h2 hy' (by linear_combination h)
      have key := thirdPoint_of_slope hc hP hP (fun h => hne h.2) (tangentSlope_zmod hc hy')
      simpa [ptDbl, hmod] using key

/-- The adder is the group's addition (R113); in particular its result is well-formed (R114). -/
theorem groupPoint_add (hc : CurveSound c) {P Q : Point} (hP : P.wf c = true) (hQ : Q.wf c = true) :
    (ptAdd c P Q).wf c = true ∧ groupPoint c (ptAdd c P Q) = groupPoint c P + groupPoint c Q := by
  cases P with
  | inf => exact ⟨by simpa [ptAdd] using hQ, by simp [ptAdd]⟩
  | aff x1 y1 =>
    cases Q with
    | inf => exact ⟨by simpa [ptAdd] using hP, by simp [ptAdd]⟩
    | aff x2 y2 =>
      have h1 := wf_aff_iff.1 hP
      have h2 := wf_aff_iff.1 hQ
      have n1 := nonsingular_of_wf hc hP
      have n2 := nonsingular_of_wf hc hQ
      have hx : x1 = x2 ↔ ((x1.toNat : Nat) : ZMod c.p) = (x2.toNat : Nat) :=
        ⟨fun h => by rw [h], word_eq_of_cast h1.1 h2.1⟩
      simp only [ptAdd]
      split_ifs with hinv hsame
      · refine ⟨rfl, ?_⟩
        rw [groupPoint_aff n1, groupPoint_aff n2, groupPoint_inf,
          WeierstrassCurve.Affine.Point.add_of_Y_eq (hx.1 hinv.1) ((inversePair_iff _ _ _).1 hinv.2)]
      · obtain ⟨rfl, rfl⟩ := hsame
        have hsum : ¬(y1.toNat + y1.toNat) % c.p = 0 := fun h => hinv ⟨rfl, h⟩
        have hy' : ((y1.toNat : Nat) : ZMod c.p) ≠ 0 := by
          rw [Ne, cast_eq_zero_of_lt h1.2.1]
          intro h0
          exact hsum (by simp [h0])
        exact thirdPoint_of_slope hc hP hP (fun h => hsum ((inversePair_iff _ _ _).2 h.2))
          (tangentSlope_zmod hc hy')
      · have hxne : ((x1.toNat : Nat) : ZMod c.p) ≠ (x2.toNat : Nat) := by
          intro hxe
          have hy := WeierstrassCurve.Affine.Y_eq_of_X_eq n1.1 n2.1 hxe
          rcases hy with hy | hy
          · exact hsame ⟨hx.2 hxe, word_eq_of_cast h1.2.1 h2.2.1 hy⟩
          · exact hinv ⟨hx.2 hxe, (inversePair_iff _ _ _).2 hy⟩
        exact thirdPoint_of_slope hc hP hQ (fun h => hxne h.1) (chordSlope_zmod hc hxne)

end

end Sys2Proof.Machine
end

