-- ==== Sys2Proof/Laws/Constants.lean ====
section
/-! SUPPORT. The constants of R7 are admissible: `p` is an odd prime with `p ≡ 3 (mod 4)` that fits a register, the curve
is nonsingular, the base point lies on it; and what every parameter's curve has. -/

namespace Sys2Proof.Machine

-- kernel checks one after another: each waits for those before it, and a waiting one holds a thread
set_option Elab.async false

theorem curve_p_prime : Fact Config.curve.p.Prime := ⟨prime_curve_p⟩

theorem curve_p_pos : 0 < Config.curve.p := by decide +kernel

theorem curve_p_lt : Config.curve.p < 2 ^ 256 := by decide +kernel

theorem curve_n_lt : Config.curve.n < 2 ^ 256 := by decide +kernel

/-- `p ≡ 3 (mod 4)` (R7, U2). -/
theorem curve_p_mod_four : Config.curve.p % 4 = 3 := by decide +kernel

theorem curve_sound : CurveSound Config.curve where
  odd := by decide +kernel
  fits := curve_p_lt
  disc := by
    rw [Ne, ZMod.natCast_eq_zero_iff, Nat.dvd_iff_mod_eq_zero]
    decide +kernel

/-- The base point is well-formed: `is_on_curve(G) = true` (R7, R111). -/
theorem basePoint_wf : (basePoint Config.curve).wf Config.curve = true := by decide +kernel

/-! Every parameter's curve -/

theorem parameters_p_prime (k : Parameters) : Fact k.curve.p.Prime := ⟨k.admissible.p_prime⟩

theorem parameters_p_pos (k : Parameters) : 0 < k.curve.p := k.admissible.p_prime.pos

/-- A parameter's curve with no singular point is what the group laws need. -/
theorem parameters_curve_sound (k : Parameters) (h : (4 * k.curve.a ^ 3 + 27 * k.curve.b ^ 2) % k.curve.p ≠ 0) :
    CurveSound k.curve where
  odd := by have := k.admissible.p_mod_four; have := k.admissible.p_prime.two_le; omega
  fits := k.admissible.fits.1
  disc := by rwa [Ne, ZMod.natCast_eq_zero_iff, Nat.dvd_iff_mod_eq_zero]

end Sys2Proof.Machine
end

