-- ==== Sys2Proof/Laws/State.lean ====
section
/-! SUPPORT. One lemma per field per update of State, so that no later proof unfolds a record update; and what each shared
operation that ends a command does. -/

namespace Sys2Proof.Machine

/-! `r[i] <- v` -/

@[simp] theorem State.setReg_r (s : State) (i : RIdx) (v : Word256) : (s.setReg i v).r = s.r.set i v := rfl
@[simp] theorem State.setReg_pt (s : State) (i : RIdx) (v : Word256) : (s.setReg i v).pt = s.pt := rfl
@[simp] theorem State.setReg_enc (s : State) (i : RIdx) (v : Word256) : (s.setReg i v).enc = s.enc := rfl
@[simp] theorem State.setReg_ikm (s : State) (i : RIdx) (v : Word256) : (s.setReg i v).ikm = s.ikm := rfl
@[simp] theorem State.setReg_salt (s : State) (i : RIdx) (v : Word256) : (s.setReg i v).salt = s.salt := rfl
@[simp] theorem State.setReg_info (s : State) (i : RIdx) (v : Word256) : (s.setReg i v).info = s.info := rfl
@[simp] theorem State.setReg_okm (s : State) (i : RIdx) (v : Word256) : (s.setReg i v).okm = s.okm := rfl
@[simp] theorem State.setReg_encLen (s : State) (i : RIdx) (v : Word256) : (s.setReg i v).encLen = s.encLen := rfl
@[simp] theorem State.setReg_ikmLen (s : State) (i : RIdx) (v : Word256) : (s.setReg i v).ikmLen = s.ikmLen := rfl
@[simp] theorem State.setReg_saltLen (s : State) (i : RIdx) (v : Word256) : (s.setReg i v).saltLen = s.saltLen := rfl
@[simp] theorem State.setReg_infoLen (s : State) (i : RIdx) (v : Word256) : (s.setReg i v).infoLen = s.infoLen := rfl
@[simp] theorem State.setReg_okmReq (s : State) (i : RIdx) (v : Word256) : (s.setReg i v).okmReq = s.okmReq := rfl
@[simp] theorem State.setReg_okmLen (s : State) (i : RIdx) (v : Word256) : (s.setReg i v).okmLen = s.okmLen := rfl
@[simp] theorem State.setReg_running (s : State) (i : RIdx) (v : Word256) : (s.setReg i v).running = s.running := rfl
@[simp] theorem State.setReg_error (s : State) (i : RIdx) (v : Word256) : (s.setReg i v).error = s.error := rfl
@[simp] theorem State.setReg_fatal (s : State) (i : RIdx) (v : Word256) : (s.setReg i v).fatal = s.fatal := rfl
@[simp] theorem State.setReg_err (s : State) (i : RIdx) (v : Word256) : (s.setReg i v).err = s.err := rfl
@[simp] theorem State.setReg_hostIn (s : State) (i : RIdx) (v : Word256) : (s.setReg i v).hostIn = s.hostIn := rfl
@[simp] theorem State.setReg_hostOut (s : State) (i : RIdx) (v : Word256) : (s.setReg i v).hostOut = s.hostOut := rfl
@[simp] theorem State.setReg_draws (s : State) (i : RIdx) (v : Word256) : (s.setReg i v).draws = s.draws := rfl

/-! `pt[i] <- P` -/

@[simp] theorem State.setPoint_r (s : State) (i : PIdx) (P : Point) : (s.setPoint i P).r = s.r := rfl
@[simp] theorem State.setPoint_pt (s : State) (i : PIdx) (P : Point) : (s.setPoint i P).pt = s.pt.set i P := rfl
@[simp] theorem State.setPoint_enc (s : State) (i : PIdx) (P : Point) : (s.setPoint i P).enc = s.enc := rfl
@[simp] theorem State.setPoint_ikm (s : State) (i : PIdx) (P : Point) : (s.setPoint i P).ikm = s.ikm := rfl
@[simp] theorem State.setPoint_salt (s : State) (i : PIdx) (P : Point) : (s.setPoint i P).salt = s.salt := rfl
@[simp] theorem State.setPoint_info (s : State) (i : PIdx) (P : Point) : (s.setPoint i P).info = s.info := rfl
@[simp] theorem State.setPoint_okm (s : State) (i : PIdx) (P : Point) : (s.setPoint i P).okm = s.okm := rfl
@[simp] theorem State.setPoint_encLen (s : State) (i : PIdx) (P : Point) : (s.setPoint i P).encLen = s.encLen := rfl
@[simp] theorem State.setPoint_ikmLen (s : State) (i : PIdx) (P : Point) : (s.setPoint i P).ikmLen = s.ikmLen := rfl
@[simp] theorem State.setPoint_saltLen (s : State) (i : PIdx) (P : Point) : (s.setPoint i P).saltLen = s.saltLen := rfl
@[simp] theorem State.setPoint_infoLen (s : State) (i : PIdx) (P : Point) : (s.setPoint i P).infoLen = s.infoLen := rfl
@[simp] theorem State.setPoint_okmReq (s : State) (i : PIdx) (P : Point) : (s.setPoint i P).okmReq = s.okmReq := rfl
@[simp] theorem State.setPoint_okmLen (s : State) (i : PIdx) (P : Point) : (s.setPoint i P).okmLen = s.okmLen := rfl
@[simp] theorem State.setPoint_running (s : State) (i : PIdx) (P : Point) : (s.setPoint i P).running = s.running := rfl
@[simp] theorem State.setPoint_error (s : State) (i : PIdx) (P : Point) : (s.setPoint i P).error = s.error := rfl
@[simp] theorem State.setPoint_fatal (s : State) (i : PIdx) (P : Point) : (s.setPoint i P).fatal = s.fatal := rfl
@[simp] theorem State.setPoint_err (s : State) (i : PIdx) (P : Point) : (s.setPoint i P).err = s.err := rfl
@[simp] theorem State.setPoint_hostIn (s : State) (i : PIdx) (P : Point) : (s.setPoint i P).hostIn = s.hostIn := rfl
@[simp] theorem State.setPoint_hostOut (s : State) (i : PIdx) (P : Point) : (s.setPoint i P).hostOut = s.hostOut := rfl
@[simp] theorem State.setPoint_draws (s : State) (i : PIdx) (P : Point) : (s.setPoint i P).draws = s.draws := rfl

/-! Replacing a buffer -/

@[simp] theorem State.setBuf_r (s : State) (b : Buf) (m : Memory) : (s.setBuf b m).r = s.r := by cases b <;> rfl
@[simp] theorem State.setBuf_pt (s : State) (b : Buf) (m : Memory) : (s.setBuf b m).pt = s.pt := by cases b <;> rfl
@[simp] theorem State.setBuf_encLen (s : State) (b : Buf) (m : Memory) : (s.setBuf b m).encLen = s.encLen := by cases b <;> rfl
@[simp] theorem State.setBuf_ikmLen (s : State) (b : Buf) (m : Memory) : (s.setBuf b m).ikmLen = s.ikmLen := by cases b <;> rfl
@[simp] theorem State.setBuf_saltLen (s : State) (b : Buf) (m : Memory) : (s.setBuf b m).saltLen = s.saltLen := by cases b <;> rfl
@[simp] theorem State.setBuf_infoLen (s : State) (b : Buf) (m : Memory) : (s.setBuf b m).infoLen = s.infoLen := by cases b <;> rfl
@[simp] theorem State.setBuf_okmReq (s : State) (b : Buf) (m : Memory) : (s.setBuf b m).okmReq = s.okmReq := by cases b <;> rfl
@[simp] theorem State.setBuf_okmLen (s : State) (b : Buf) (m : Memory) : (s.setBuf b m).okmLen = s.okmLen := by cases b <;> rfl
@[simp] theorem State.setBuf_running (s : State) (b : Buf) (m : Memory) : (s.setBuf b m).running = s.running := by cases b <;> rfl
@[simp] theorem State.setBuf_error (s : State) (b : Buf) (m : Memory) : (s.setBuf b m).error = s.error := by cases b <;> rfl
@[simp] theorem State.setBuf_fatal (s : State) (b : Buf) (m : Memory) : (s.setBuf b m).fatal = s.fatal := by cases b <;> rfl
@[simp] theorem State.setBuf_err (s : State) (b : Buf) (m : Memory) : (s.setBuf b m).err = s.err := by cases b <;> rfl
@[simp] theorem State.setBuf_hostIn (s : State) (b : Buf) (m : Memory) : (s.setBuf b m).hostIn = s.hostIn := by cases b <;> rfl
@[simp] theorem State.setBuf_hostOut (s : State) (b : Buf) (m : Memory) : (s.setBuf b m).hostOut = s.hostOut := by cases b <;> rfl
@[simp] theorem State.setBuf_draws (s : State) (b : Buf) (m : Memory) : (s.setBuf b m).draws = s.draws := by cases b <;> rfl

/-! Replacing a length register -/

@[simp] theorem State.setBufLen_r (s : State) (b : Buf) (n : Word32) : (s.setBufLen b n).r = s.r := by cases b <;> rfl
@[simp] theorem State.setBufLen_pt (s : State) (b : Buf) (n : Word32) : (s.setBufLen b n).pt = s.pt := by cases b <;> rfl
@[simp] theorem State.setBufLen_enc (s : State) (b : Buf) (n : Word32) : (s.setBufLen b n).enc = s.enc := by cases b <;> rfl
@[simp] theorem State.setBufLen_ikm (s : State) (b : Buf) (n : Word32) : (s.setBufLen b n).ikm = s.ikm := by cases b <;> rfl
@[simp] theorem State.setBufLen_salt (s : State) (b : Buf) (n : Word32) : (s.setBufLen b n).salt = s.salt := by cases b <;> rfl
@[simp] theorem State.setBufLen_info (s : State) (b : Buf) (n : Word32) : (s.setBufLen b n).info = s.info := by cases b <;> rfl
@[simp] theorem State.setBufLen_okm (s : State) (b : Buf) (n : Word32) : (s.setBufLen b n).okm = s.okm := by cases b <;> rfl
@[simp] theorem State.setBufLen_okmReq (s : State) (b : Buf) (n : Word32) : (s.setBufLen b n).okmReq = s.okmReq := by cases b <;> rfl
@[simp] theorem State.setBufLen_running (s : State) (b : Buf) (n : Word32) : (s.setBufLen b n).running = s.running := by cases b <;> rfl
@[simp] theorem State.setBufLen_error (s : State) (b : Buf) (n : Word32) : (s.setBufLen b n).error = s.error := by cases b <;> rfl
@[simp] theorem State.setBufLen_fatal (s : State) (b : Buf) (n : Word32) : (s.setBufLen b n).fatal = s.fatal := by cases b <;> rfl
@[simp] theorem State.setBufLen_err (s : State) (b : Buf) (n : Word32) : (s.setBufLen b n).err = s.err := by cases b <;> rfl
@[simp] theorem State.setBufLen_hostIn (s : State) (b : Buf) (n : Word32) : (s.setBufLen b n).hostIn = s.hostIn := by cases b <;> rfl
@[simp] theorem State.setBufLen_hostOut (s : State) (b : Buf) (n : Word32) : (s.setBufLen b n).hostOut = s.hostOut := by cases b <;> rfl
@[simp] theorem State.setBufLen_draws (s : State) (b : Buf) (n : Word32) : (s.setBufLen b n).draws = s.draws := by cases b <;> rfl

/-! Delivering a byte string -/

@[simp] theorem State.deliver_r (s : State) (b : Buf) (bytes : List Byte) : (s.deliver b bytes).r = s.r := by cases b <;> rfl
@[simp] theorem State.deliver_pt (s : State) (b : Buf) (bytes : List Byte) : (s.deliver b bytes).pt = s.pt := by cases b <;> rfl
@[simp] theorem State.deliver_okmReq (s : State) (b : Buf) (bytes : List Byte) : (s.deliver b bytes).okmReq = s.okmReq := by cases b <;> rfl
@[simp] theorem State.deliver_running (s : State) (b : Buf) (bytes : List Byte) : (s.deliver b bytes).running = s.running := by cases b <;> rfl
@[simp] theorem State.deliver_error (s : State) (b : Buf) (bytes : List Byte) : (s.deliver b bytes).error = s.error := by cases b <;> rfl
@[simp] theorem State.deliver_fatal (s : State) (b : Buf) (bytes : List Byte) : (s.deliver b bytes).fatal = s.fatal := by cases b <;> rfl
@[simp] theorem State.deliver_err (s : State) (b : Buf) (bytes : List Byte) : (s.deliver b bytes).err = s.err := by cases b <;> rfl
@[simp] theorem State.deliver_hostIn (s : State) (b : Buf) (bytes : List Byte) : (s.deliver b bytes).hostIn = s.hostIn := by cases b <;> rfl
@[simp] theorem State.deliver_hostOut (s : State) (b : Buf) (bytes : List Byte) : (s.deliver b bytes).hostOut = s.hostOut := by cases b <;> rfl
@[simp] theorem State.deliver_draws (s : State) (b : Buf) (bytes : List Byte) : (s.deliver b bytes).draws = s.draws := by cases b <;> rfl

/-! Taking an error (R205) -/

@[simp] theorem State.raise_r (s : State) (e : ErrorKind) : (s.raise e).r = s.r := rfl
@[simp] theorem State.raise_pt (s : State) (e : ErrorKind) : (s.raise e).pt = s.pt := rfl
@[simp] theorem State.raise_enc (s : State) (e : ErrorKind) : (s.raise e).enc = s.enc := rfl
@[simp] theorem State.raise_ikm (s : State) (e : ErrorKind) : (s.raise e).ikm = s.ikm := rfl
@[simp] theorem State.raise_salt (s : State) (e : ErrorKind) : (s.raise e).salt = s.salt := rfl
@[simp] theorem State.raise_info (s : State) (e : ErrorKind) : (s.raise e).info = s.info := rfl
@[simp] theorem State.raise_okm (s : State) (e : ErrorKind) : (s.raise e).okm = s.okm := rfl
@[simp] theorem State.raise_encLen (s : State) (e : ErrorKind) : (s.raise e).encLen = s.encLen := rfl
@[simp] theorem State.raise_ikmLen (s : State) (e : ErrorKind) : (s.raise e).ikmLen = s.ikmLen := rfl
@[simp] theorem State.raise_saltLen (s : State) (e : ErrorKind) : (s.raise e).saltLen = s.saltLen := rfl
@[simp] theorem State.raise_infoLen (s : State) (e : ErrorKind) : (s.raise e).infoLen = s.infoLen := rfl
@[simp] theorem State.raise_okmReq (s : State) (e : ErrorKind) : (s.raise e).okmReq = s.okmReq := rfl
@[simp] theorem State.raise_okmLen (s : State) (e : ErrorKind) : (s.raise e).okmLen = s.okmLen := rfl
@[simp] theorem State.raise_running (s : State) (e : ErrorKind) : (s.raise e).running = none := rfl
@[simp] theorem State.raise_error (s : State) (e : ErrorKind) : (s.raise e).error = true := rfl
@[simp] theorem State.raise_fatal (s : State) (e : ErrorKind) : (s.raise e).fatal = (s.fatal || e.isFatal) := rfl
@[simp] theorem State.raise_err (s : State) (e : ErrorKind) : (s.raise e).err = some e := rfl
@[simp] theorem State.raise_hostIn (s : State) (e : ErrorKind) : (s.raise e).hostIn = s.hostIn := rfl
@[simp] theorem State.raise_hostOut (s : State) (e : ErrorKind) : (s.raise e).hostOut = s.hostOut := rfl
@[simp] theorem State.raise_draws (s : State) (e : ErrorKind) : (s.raise e).draws = s.draws := rfl

/-! Ending without one (R205) -/

@[simp] theorem State.endOk_r (s : State) : (s.endOk).r = s.r := rfl
@[simp] theorem State.endOk_pt (s : State) : (s.endOk).pt = s.pt := rfl
@[simp] theorem State.endOk_enc (s : State) : (s.endOk).enc = s.enc := rfl
@[simp] theorem State.endOk_ikm (s : State) : (s.endOk).ikm = s.ikm := rfl
@[simp] theorem State.endOk_salt (s : State) : (s.endOk).salt = s.salt := rfl
@[simp] theorem State.endOk_info (s : State) : (s.endOk).info = s.info := rfl
@[simp] theorem State.endOk_okm (s : State) : (s.endOk).okm = s.okm := rfl
@[simp] theorem State.endOk_encLen (s : State) : (s.endOk).encLen = s.encLen := rfl
@[simp] theorem State.endOk_ikmLen (s : State) : (s.endOk).ikmLen = s.ikmLen := rfl
@[simp] theorem State.endOk_saltLen (s : State) : (s.endOk).saltLen = s.saltLen := rfl
@[simp] theorem State.endOk_infoLen (s : State) : (s.endOk).infoLen = s.infoLen := rfl
@[simp] theorem State.endOk_okmReq (s : State) : (s.endOk).okmReq = s.okmReq := rfl
@[simp] theorem State.endOk_okmLen (s : State) : (s.endOk).okmLen = s.okmLen := rfl
@[simp] theorem State.endOk_running (s : State) : (s.endOk).running = none := rfl
@[simp] theorem State.endOk_error (s : State) : (s.endOk).error = false := rfl
@[simp] theorem State.endOk_fatal (s : State) : (s.endOk).fatal = s.fatal := rfl
@[simp] theorem State.endOk_err (s : State) : (s.endOk).err = none := rfl
@[simp] theorem State.endOk_hostIn (s : State) : (s.endOk).hostIn = s.hostIn := rfl
@[simp] theorem State.endOk_hostOut (s : State) : (s.endOk).hostOut = s.hostOut := rfl
@[simp] theorem State.endOk_draws (s : State) : (s.endOk).draws = s.draws := rfl

/-! One more draw -/

@[simp] theorem State.afterDraw_r (s : State) : (s.afterDraw).r = s.r := rfl
@[simp] theorem State.afterDraw_pt (s : State) : (s.afterDraw).pt = s.pt := rfl
@[simp] theorem State.afterDraw_enc (s : State) : (s.afterDraw).enc = s.enc := rfl
@[simp] theorem State.afterDraw_ikm (s : State) : (s.afterDraw).ikm = s.ikm := rfl
@[simp] theorem State.afterDraw_salt (s : State) : (s.afterDraw).salt = s.salt := rfl
@[simp] theorem State.afterDraw_info (s : State) : (s.afterDraw).info = s.info := rfl
@[simp] theorem State.afterDraw_okm (s : State) : (s.afterDraw).okm = s.okm := rfl
@[simp] theorem State.afterDraw_encLen (s : State) : (s.afterDraw).encLen = s.encLen := rfl
@[simp] theorem State.afterDraw_ikmLen (s : State) : (s.afterDraw).ikmLen = s.ikmLen := rfl
@[simp] theorem State.afterDraw_saltLen (s : State) : (s.afterDraw).saltLen = s.saltLen := rfl
@[simp] theorem State.afterDraw_infoLen (s : State) : (s.afterDraw).infoLen = s.infoLen := rfl
@[simp] theorem State.afterDraw_okmReq (s : State) : (s.afterDraw).okmReq = s.okmReq := rfl
@[simp] theorem State.afterDraw_okmLen (s : State) : (s.afterDraw).okmLen = s.okmLen := rfl
@[simp] theorem State.afterDraw_running (s : State) : (s.afterDraw).running = s.running := rfl
@[simp] theorem State.afterDraw_error (s : State) : (s.afterDraw).error = s.error := rfl
@[simp] theorem State.afterDraw_fatal (s : State) : (s.afterDraw).fatal = s.fatal := rfl
@[simp] theorem State.afterDraw_err (s : State) : (s.afterDraw).err = s.err := rfl
@[simp] theorem State.afterDraw_hostIn (s : State) : (s.afterDraw).hostIn = s.hostIn := rfl
@[simp] theorem State.afterDraw_hostOut (s : State) : (s.afterDraw).hostOut = s.hostOut := rfl
@[simp] theorem State.afterDraw_draws (s : State) : (s.afterDraw).draws = s.draws + 1 := rfl

/-! Answering a read -/

@[simp] theorem State.answer_r (s : State) (a : HostAnswer) : (s.answer a).r = s.r := rfl
@[simp] theorem State.answer_pt (s : State) (a : HostAnswer) : (s.answer a).pt = s.pt := rfl
@[simp] theorem State.answer_enc (s : State) (a : HostAnswer) : (s.answer a).enc = s.enc := rfl
@[simp] theorem State.answer_ikm (s : State) (a : HostAnswer) : (s.answer a).ikm = s.ikm := rfl
@[simp] theorem State.answer_salt (s : State) (a : HostAnswer) : (s.answer a).salt = s.salt := rfl
@[simp] theorem State.answer_info (s : State) (a : HostAnswer) : (s.answer a).info = s.info := rfl
@[simp] theorem State.answer_okm (s : State) (a : HostAnswer) : (s.answer a).okm = s.okm := rfl
@[simp] theorem State.answer_encLen (s : State) (a : HostAnswer) : (s.answer a).encLen = s.encLen := rfl
@[simp] theorem State.answer_ikmLen (s : State) (a : HostAnswer) : (s.answer a).ikmLen = s.ikmLen := rfl
@[simp] theorem State.answer_saltLen (s : State) (a : HostAnswer) : (s.answer a).saltLen = s.saltLen := rfl
@[simp] theorem State.answer_infoLen (s : State) (a : HostAnswer) : (s.answer a).infoLen = s.infoLen := rfl
@[simp] theorem State.answer_okmReq (s : State) (a : HostAnswer) : (s.answer a).okmReq = s.okmReq := rfl
@[simp] theorem State.answer_okmLen (s : State) (a : HostAnswer) : (s.answer a).okmLen = s.okmLen := rfl
@[simp] theorem State.answer_running (s : State) (a : HostAnswer) : (s.answer a).running = s.running := rfl
@[simp] theorem State.answer_error (s : State) (a : HostAnswer) : (s.answer a).error = s.error := rfl
@[simp] theorem State.answer_fatal (s : State) (a : HostAnswer) : (s.answer a).fatal = s.fatal := rfl
@[simp] theorem State.answer_err (s : State) (a : HostAnswer) : (s.answer a).err = s.err := rfl
@[simp] theorem State.answer_hostIn (s : State) (a : HostAnswer) : (s.answer a).hostIn = s.hostIn := rfl
@[simp] theorem State.answer_hostOut (s : State) (a : HostAnswer) : (s.answer a).hostOut = a :: s.hostOut := rfl
@[simp] theorem State.answer_draws (s : State) (a : HostAnswer) : (s.answer a).draws = s.draws := rfl

/-! A command placed -/

@[simp] theorem State.withCommand_r (s : State) (w : Word32) : (s.withCommand w).r = s.r := rfl
@[simp] theorem State.withCommand_pt (s : State) (w : Word32) : (s.withCommand w).pt = s.pt := rfl
@[simp] theorem State.withCommand_enc (s : State) (w : Word32) : (s.withCommand w).enc = s.enc := rfl
@[simp] theorem State.withCommand_ikm (s : State) (w : Word32) : (s.withCommand w).ikm = s.ikm := rfl
@[simp] theorem State.withCommand_salt (s : State) (w : Word32) : (s.withCommand w).salt = s.salt := rfl
@[simp] theorem State.withCommand_info (s : State) (w : Word32) : (s.withCommand w).info = s.info := rfl
@[simp] theorem State.withCommand_okm (s : State) (w : Word32) : (s.withCommand w).okm = s.okm := rfl
@[simp] theorem State.withCommand_encLen (s : State) (w : Word32) : (s.withCommand w).encLen = s.encLen := rfl
@[simp] theorem State.withCommand_ikmLen (s : State) (w : Word32) : (s.withCommand w).ikmLen = s.ikmLen := rfl
@[simp] theorem State.withCommand_saltLen (s : State) (w : Word32) : (s.withCommand w).saltLen = s.saltLen := rfl
@[simp] theorem State.withCommand_infoLen (s : State) (w : Word32) : (s.withCommand w).infoLen = s.infoLen := rfl
@[simp] theorem State.withCommand_okmReq (s : State) (w : Word32) : (s.withCommand w).okmReq = s.okmReq := rfl
@[simp] theorem State.withCommand_okmLen (s : State) (w : Word32) : (s.withCommand w).okmLen = s.okmLen := rfl
@[simp] theorem State.withCommand_running (s : State) (w : Word32) : (s.withCommand w).running = some w := rfl
@[simp] theorem State.withCommand_error (s : State) (w : Word32) : (s.withCommand w).error = s.error := rfl
@[simp] theorem State.withCommand_fatal (s : State) (w : Word32) : (s.withCommand w).fatal = s.fatal := rfl
@[simp] theorem State.withCommand_err (s : State) (w : Word32) : (s.withCommand w).err = s.err := rfl
@[simp] theorem State.withCommand_hostIn (s : State) (w : Word32) : (s.withCommand w).hostIn = holdNextAccess s.hostIn := rfl
@[simp] theorem State.withCommand_hostOut (s : State) (w : Word32) : (s.withCommand w).hostOut = s.hostOut := rfl
@[simp] theorem State.withCommand_draws (s : State) (w : Word32) : (s.withCommand w).draws = s.draws := rfl

/-! Reading back a register -/

@[simp] theorem State.reg_setReg_self (s : State) (i : RIdx) (v : Word256) : (s.setReg i v).reg i = v := by
  simp [State.reg, State.setReg]

@[simp] theorem State.reg_setReg_of_ne (s : State) {i j : RIdx} (v : Word256) (h : j ≠ i) :
    (s.setReg i v).reg j = s.reg j := by
  have : (i : Nat) ≠ j := fun e => h (Fin.ext e.symm)
  simp [State.reg, State.setReg, Vector.getElem_set_ne, this]

@[simp] theorem State.point_setPoint_self (s : State) (i : PIdx) (P : Point) : (s.setPoint i P).point i = P := by
  simp [State.point, State.setPoint]

@[simp] theorem State.point_setPoint_of_ne (s : State) {i j : PIdx} (P : Point) (h : j ≠ i) :
    (s.setPoint i P).point j = s.point j := by
  have : (i : Nat) ≠ j := fun e => h (Fin.ext e.symm)
  simp [State.point, State.setPoint, Vector.getElem_set_ne, this]

@[simp] theorem State.point_setReg (s : State) (i : RIdx) (j : PIdx) (v : Word256) :
    (s.setReg i v).point j = s.point j := rfl

@[simp] theorem State.reg_setPoint (s : State) (i : PIdx) (j : RIdx) (P : Point) :
    (s.setPoint i P).reg j = s.reg j := rfl

@[simp] theorem State.reg_endOk (s : State) (i : RIdx) : (s.endOk).reg i = s.reg i := rfl
@[simp] theorem State.point_endOk (s : State) (i : PIdx) : (s.endOk).point i = s.point i := rfl
@[simp] theorem State.reg_raise (s : State) (e : ErrorKind) (i : RIdx) : (s.raise e).reg i = s.reg i := rfl
@[simp] theorem State.point_raise (s : State) (e : ErrorKind) (i : PIdx) : (s.raise e).point i = s.point i := rfl
@[simp] theorem State.reg_afterDraw (s : State) (i : RIdx) : (s.afterDraw).reg i = s.reg i := rfl
@[simp] theorem State.point_afterDraw (s : State) (i : PIdx) : (s.afterDraw).point i = s.point i := rfl
@[simp] theorem State.reg_answer (s : State) (a : HostAnswer) (i : RIdx) : (s.answer a).reg i = s.reg i := rfl
@[simp] theorem State.point_answer (s : State) (a : HostAnswer) (i : PIdx) : (s.answer a).point i = s.point i := rfl

@[simp] theorem State.reg_deliver (s : State) (b : Buf) (bytes : List Byte) (i : RIdx) :
    (s.deliver b bytes).reg i = s.reg i := by cases b <;> rfl

@[simp] theorem State.point_deliver (s : State) (b : Buf) (bytes : List Byte) (i : PIdx) :
    (s.deliver b bytes).point i = s.point i := by cases b <;> rfl

/-! Buffers and their length registers -/

@[simp] theorem State.buf_setBuf_self (s : State) (b : Buf) (m : Memory) : (s.setBuf b m).buf b = m := by
  cases b <;> rfl

@[simp] theorem State.buf_setBuf_of_ne (s : State) {b b' : Buf} (m : Memory) (h : b' ≠ b) :
    (s.setBuf b m).buf b' = s.buf b' := by
  cases b <;> cases b' <;> first | rfl | exact absurd rfl h

@[simp] theorem State.bufLen_setBuf (s : State) (b b' : Buf) (m : Memory) :
    (s.setBuf b m).bufLen b' = s.bufLen b' := by
  cases b <;> cases b' <;> rfl

@[simp] theorem State.buf_setBufLen (s : State) (b b' : Buf) (n : Word32) :
    (s.setBufLen b n).buf b' = s.buf b' := by
  cases b <;> cases b' <;> rfl

@[simp] theorem State.bufLen_setBufLen_self (s : State) (b : Buf) (n : Word32) : (s.setBufLen b n).bufLen b = n := by
  cases b <;> rfl

@[simp] theorem State.bufLen_setBufLen_of_ne (s : State) {b b' : Buf} (n : Word32) (h : b' ≠ b) :
    (s.setBufLen b n).bufLen b' = s.bufLen b' := by
  cases b <;> cases b' <;> first | rfl | exact absurd rfl h

@[simp] theorem State.buf_deliver_self (s : State) (b : Buf) (bytes : List Byte) :
    (s.deliver b bytes).buf b = memWrite (s.buf b) 0 bytes := by
  simp [State.deliver]

@[simp] theorem State.buf_deliver_of_ne (s : State) {b b' : Buf} (bytes : List Byte) (h : b' ≠ b) :
    (s.deliver b bytes).buf b' = s.buf b' := by
  simp [State.deliver, h]

@[simp] theorem State.bufLen_deliver_self (s : State) (b : Buf) (bytes : List Byte) :
    (s.deliver b bytes).bufLen b = BitVec.ofNat 32 bytes.length := by
  simp [State.deliver]

@[simp] theorem State.bufLen_deliver_of_ne (s : State) {b b' : Buf} (bytes : List Byte) (h : b' ≠ b) :
    (s.deliver b bytes).bufLen b' = s.bufLen b' := by
  simp [State.deliver, h]

@[simp] theorem State.buf_setReg (s : State) (i : RIdx) (v : Word256) (b : Buf) : (s.setReg i v).buf b = s.buf b := by cases b <;> rfl
@[simp] theorem State.bufLen_setReg (s : State) (i : RIdx) (v : Word256) (b : Buf) : (s.setReg i v).bufLen b = s.bufLen b := by cases b <;> rfl
@[simp] theorem State.buf_setPoint (s : State) (i : PIdx) (P : Point) (b : Buf) : (s.setPoint i P).buf b = s.buf b := by cases b <;> rfl
@[simp] theorem State.bufLen_setPoint (s : State) (i : PIdx) (P : Point) (b : Buf) : (s.setPoint i P).bufLen b = s.bufLen b := by cases b <;> rfl
@[simp] theorem State.buf_raise (s : State) (e : ErrorKind) (b : Buf) : (s.raise e).buf b = s.buf b := by cases b <;> rfl
@[simp] theorem State.bufLen_raise (s : State) (e : ErrorKind) (b : Buf) : (s.raise e).bufLen b = s.bufLen b := by cases b <;> rfl
@[simp] theorem State.buf_endOk (s : State) (b : Buf) : (s.endOk).buf b = s.buf b := by cases b <;> rfl
@[simp] theorem State.bufLen_endOk (s : State) (b : Buf) : (s.endOk).bufLen b = s.bufLen b := by cases b <;> rfl
@[simp] theorem State.buf_afterDraw (s : State) (b : Buf) : (s.afterDraw).buf b = s.buf b := by cases b <;> rfl
@[simp] theorem State.bufLen_afterDraw (s : State) (b : Buf) : (s.afterDraw).bufLen b = s.bufLen b := by cases b <;> rfl
@[simp] theorem State.buf_answer (s : State) (a : HostAnswer) (b : Buf) : (s.answer a).buf b = s.buf b := by cases b <;> rfl
@[simp] theorem State.bufLen_answer (s : State) (a : HostAnswer) (b : Buf) : (s.answer a).bufLen b = s.bufLen b := by cases b <;> rfl

/-! The end of a command -/

/-- A command always ends in a next state (R249). -/
theorem endCommand_ok (s t : State) : endCommand s (.ok t) = .next t.endOk := rfl

theorem endCommand_error (s : State) (e : ErrorKind) : endCommand s (.error e) = .next (s.raise e) := rfl

/-- All a command's end can do: its destinations and no error, or an error and nothing else (R205, R206). -/
theorem endCommand_cases {s t : State} {res : Except ErrorKind State} (h : endCommand s res = .next t) :
    (∃ u, res = .ok u ∧ t = u.endOk) ∨ (∃ e, res = .error e ∧ t = s.raise e) := by
  cases res with
  | ok u => exact .inl ⟨u, rfl, by simpa [endCommand] using h.symm⟩
  | error e => exact .inr ⟨e, rfl, by simpa [endCommand] using h.symm⟩

end Sys2Proof.Machine
end

