-- ==== Sys2Proof/Laws/Exec.lean ====
section
/-! SUPPORT. Everything a command can do, said once, for all parameters: `commandMeaning_ending`, `commandMeaning_cases`; and
`exec_ending`, `exec_cases`, their case at the defaults. A proof about all commands cites them and unfolds no meaning. -/

namespace Sys2Proof.Machine

open Sys2Proof.Spec

/-- How a command can leave the state (R205): an error, which leaves all but the status; or its end, with its one register,
its one point, both (`KEYGEN`), or its buffer and length written. -/
inductive Ending (i : Instr) (s : State) : State → Prop where
  | failed (e : ErrorKind) (he : e ∈ errorsOf i) (hf : e.isFatal = false) : Ending i s (s.raise e)
  | keygenFailed (rd : RIdx) (pd : PIdx) (hi : i = .keygen rd pd) : Ending i s (s.afterDraw.raise .internalInvariant)
  | wroteReg (rd : RIdx) (v : Word256) (hr : writesReg i = some rd) (hp : writesPoint i = none)
      (hs : storesTo i s = none) : Ending i s (s.setReg rd v).endOk
  | wrotePoint (pd : PIdx) (P : Point) (hp : writesPoint i = some pd) (hr : writesReg i = none)
      (hs : storesTo i s = none) : Ending i s (s.setPoint pd P).endOk
  | wroteKeys (rd : RIdx) (pd : PIdx) (d : Word256) (P : Point) (hi : i = .keygen rd pd) :
      Ending i s ((s.afterDraw.setReg rd d).setPoint pd P).endOk
  | stored (b : Buf) (bytes : List Byte) (hs : storesTo i s = some (b, bytes.length)) (hlen : ∀ k, bytes.length ≤ b.cap k)
      (hr : writesReg i = none) (hp : writesPoint i = none) : Ending i s (s.deliver b bytes).endOk

theorem decodePoint_error {c : Curve} {l : List Byte} {e : ErrorKind} (h : decodePoint c l = .error e) :
    e = .invalidEncoding := by
  unfold decodePoint decodeUncompressed decodeCompressed checkedPoint at h
  repeat' split at h
  all_goals (cases h; try rfl)

theorem sharedSecret_error {c : Curve} {k : Nat} {Q : Point} {e : ErrorKind} (h : sharedSecret c k Q = .error e) :
    e ∈ [ErrorKind.infinityNotAllowed, .pointNotOnCurve, .degenerateSharedSecret] := by
  unfold sharedSecret at h
  split_ifs at h
  · cases h; simp
  · cases h; simp
  · split at h <;> cases h
    simp

/-- One register written, or an error: the field commands and `ONCURVE`. -/
theorem ending_reg {i : Instr} {s : State} {rd : RIdx} {res : Except ErrorKind State} (hr : writesReg i = some rd)
    (hp : writesPoint i = none) (hs : storesTo i s = none) (hok : ∀ t, res = .ok t → ∃ v, t = s.setReg rd v)
    (herr : ∀ e, res = .error e → e ∈ errorsOf i ∧ e.isFatal = false) :
    ∃ t, endCommand s res = .next t ∧ Ending i s t := by
  cases res with
  | ok t => obtain ⟨v, rfl⟩ := hok t rfl; exact ⟨_, rfl, .wroteReg rd v hr hp hs⟩
  | error e => exact ⟨_, rfl, .failed e (herr e rfl).1 (herr e rfl).2⟩

/-- One point written, or an error: the point commands, `SMUL` and `DECODE`. -/
theorem ending_point {i : Instr} {s : State} {pd : PIdx} {res : Except ErrorKind State} (hp : writesPoint i = some pd)
    (hr : writesReg i = none) (hs : storesTo i s = none) (hok : ∀ t, res = .ok t → ∃ P, t = s.setPoint pd P)
    (herr : ∀ e, res = .error e → e ∈ errorsOf i ∧ e.isFatal = false) :
    ∃ t, endCommand s res = .next t ∧ Ending i s t := by
  cases res with
  | ok t => obtain ⟨P, rfl⟩ := hok t rfl; exact ⟨_, rfl, .wrotePoint pd P hp hr hs⟩
  | error e => exact ⟨_, rfl, .failed e (herr e rfl).1 (herr e rfl).2⟩

/-- A buffer stored, or an error: `ENCODE`, `ECDH`, `HKDF`. -/
theorem ending_buf {i : Instr} {s : State} {b : Buf} {res : Except ErrorKind State} (hr : writesReg i = none)
    (hp : writesPoint i = none)
    (hok : ∀ t, res = .ok t → ∃ bytes, t = s.deliver b bytes ∧ storesTo i s = some (b, bytes.length) ∧
      ∀ k, bytes.length ≤ b.cap k)
    (herr : ∀ e, res = .error e → e ∈ errorsOf i ∧ e.isFatal = false) :
    ∃ t, endCommand s res = .next t ∧ Ending i s t := by
  cases res with
  | ok t => obtain ⟨bytes, rfl, hs, hl⟩ := hok t rfl; exact ⟨_, rfl, .stored b bytes hs hl hr hp⟩
  | error e => exact ⟨_, rfl, .failed e (herr e rfl).1 (herr e rfl).2⟩

/-! One lemma per command -/

theorem ending_fadd (k : Parameters) (rd rs1 rs2 : RIdx) (s : State) :
    ∃ t, commandMeaning k (.fadd rd rs1 rs2) s = .next t ∧ Ending (.fadd rd rs1 rs2) s t := by
  apply ending_reg (rd := rd) rfl rfl rfl <;> intro t h <;> unfold fieldOperands at h <;> split_ifs at h <;> cases h
  · exact ⟨_, rfl⟩
  · exact ⟨by simp [errorsOf], rfl⟩

theorem ending_fsub (k : Parameters) (rd rs1 rs2 : RIdx) (s : State) :
    ∃ t, commandMeaning k (.fsub rd rs1 rs2) s = .next t ∧ Ending (.fsub rd rs1 rs2) s t := by
  apply ending_reg (rd := rd) rfl rfl rfl <;> intro t h <;> unfold fieldOperands at h <;> split_ifs at h <;> cases h
  · exact ⟨_, rfl⟩
  · exact ⟨by simp [errorsOf], rfl⟩

theorem ending_fmul (k : Parameters) (rd rs1 rs2 : RIdx) (s : State) :
    ∃ t, commandMeaning k (.fmul rd rs1 rs2) s = .next t ∧ Ending (.fmul rd rs1 rs2) s t := by
  apply ending_reg (rd := rd) rfl rfl rfl <;> intro t h <;> unfold fieldOperands at h <;> split_ifs at h <;> cases h
  · exact ⟨_, rfl⟩
  · exact ⟨by simp [errorsOf], rfl⟩

theorem ending_finv (k : Parameters) (rd rs1 : RIdx) (s : State) :
    ∃ t, commandMeaning k (.finv rd rs1) s = .next t ∧ Ending (.finv rd rs1) s t := by
  apply ending_reg (rd := rd) rfl rfl rfl <;> intro t h <;> unfold fieldOperand at h <;> split_ifs at h <;>
    simp only [] at h <;> (try split_ifs at h) <;> cases h
  · exact ⟨_, rfl⟩
  · exact ⟨by simp [errorsOf], rfl⟩
  · exact ⟨by simp [errorsOf], rfl⟩

theorem ending_oncurve (k : Parameters) (rd rs1 rs2 : RIdx) (s : State) :
    ∃ t, commandMeaning k (.oncurve rd rs1 rs2) s = .next t ∧ Ending (.oncurve rd rs1 rs2) s t := by
  apply ending_reg (rd := rd) rfl rfl rfl <;> intro t h <;> unfold fieldOperands at h <;> split_ifs at h <;> cases h
  · exact ⟨_, rfl⟩
  · exact ⟨by simp [errorsOf], rfl⟩

theorem ending_fsqrt (k : Parameters) (rd rs1 : RIdx) (s : State) :
    ∃ t, commandMeaning k (.fsqrt rd rs1) s = .next t ∧ Ending (.fsqrt rd rs1) s t := by
  apply ending_reg (rd := rd) rfl rfl rfl <;> intro t h <;> unfold fieldOperand at h <;> split_ifs at h <;>
    simp only [] at h <;> (try split at h) <;> cases h
  · exact ⟨_, rfl⟩
  · exact ⟨by simp [errorsOf], rfl⟩
  · exact ⟨by simp [errorsOf], rfl⟩

theorem ending_pset (k : Parameters) (pd : PIdx) (rs1 rs2 : RIdx) (s : State) :
    ∃ t, commandMeaning k (.pset pd rs1 rs2) s = .next t ∧ Ending (.pset pd rs1 rs2) s t := by
  apply ending_point (pd := pd) rfl rfl rfl <;> intro t h <;> unfold fieldOperands at h <;> split_ifs at h <;>
    simp only [] at h <;> (try split_ifs at h) <;> cases h
  · exact ⟨_, rfl⟩
  · exact ⟨by simp [errorsOf], rfl⟩
  · exact ⟨by simp [errorsOf], rfl⟩

theorem ending_pinf (k : Parameters) (pd : PIdx) (s : State) :
    ∃ t, commandMeaning k (.pinf pd) s = .next t ∧ Ending (.pinf pd) s t :=
  ⟨_, rfl, .wrotePoint pd _ rfl rfl rfl⟩

theorem ending_pbase (k : Parameters) (pd : PIdx) (s : State) :
    ∃ t, commandMeaning k (.pbase pd) s = .next t ∧ Ending (.pbase pd) s t :=
  ⟨_, rfl, .wrotePoint pd _ rfl rfl rfl⟩

theorem ending_pneg (k : Parameters) (pd ps1 : PIdx) (s : State) :
    ∃ t, commandMeaning k (.pneg pd ps1) s = .next t ∧ Ending (.pneg pd ps1) s t :=
  ⟨_, rfl, .wrotePoint pd _ rfl rfl rfl⟩

theorem ending_padd (k : Parameters) (pd ps1 ps2 : PIdx) (s : State) :
    ∃ t, commandMeaning k (.padd pd ps1 ps2) s = .next t ∧ Ending (.padd pd ps1 ps2) s t :=
  ⟨_, rfl, .wrotePoint pd _ rfl rfl rfl⟩

theorem ending_pdbl (k : Parameters) (pd ps1 : PIdx) (s : State) :
    ∃ t, commandMeaning k (.pdbl pd ps1) s = .next t ∧ Ending (.pdbl pd ps1) s t :=
  ⟨_, rfl, .wrotePoint pd _ rfl rfl rfl⟩

theorem ending_smul (k : Parameters) (pd : PIdx) (rs1 : RIdx) (ps2 : PIdx) (s : State) :
    ∃ t, commandMeaning k (.smul pd rs1 ps2) s = .next t ∧ Ending (.smul pd rs1 ps2) s t :=
  ⟨_, rfl, .wrotePoint pd _ rfl rfl rfl⟩

theorem ending_decode (k : Parameters) (pd : PIdx) (s : State) :
    ∃ t, commandMeaning k (.decode pd) s = .next t ∧ Ending (.decode pd) s t := by
  apply ending_point (pd := pd) rfl rfl rfl <;> intro t h <;> split_ifs at h
  · split at h <;> cases h
    exact ⟨_, rfl⟩
  · cases h; exact ⟨by simp [errorsOf], rfl⟩
  · split at h <;> cases h
    rename_i he
    rw [decodePoint_error he]
    exact ⟨by simp [errorsOf], rfl⟩

theorem ending_keygen (k : Parameters) (rd : RIdx) (pd : PIdx) (s : State) :
    ∃ t, commandMeaning k (.keygen rd pd) s = .next t ∧ Ending (.keygen rd pd) s t := by
  show ∃ t, endCommand _ (keygenResult _ _ _ _ _) = _ ∧ _
  unfold keygenResult
  dsimp only
  split_ifs
  · exact ⟨_, rfl, .keygenFailed rd pd rfl⟩
  · exact ⟨_, rfl, .wroteKeys rd pd _ _ rfl⟩

theorem ending_ecdh (k : Parameters) (rs1 : RIdx) (ps2 : PIdx) (s : State) :
    ∃ t, commandMeaning k (.ecdh rs1 ps2) s = .next t ∧ Ending (.ecdh rs1 ps2) s t := by
  apply ending_buf (b := .ikm) rfl rfl <;> intro t h <;> split at h <;> cases h
  · rename_i bytes hb
    exact ⟨bytes, rfl, by rw [sharedSecret_length hb]; rfl, fun k => by rw [sharedSecret_length hb]; exact k.ikm_ge⟩
  · rename_i he
    have := sharedSecret_error he
    refine ⟨this, ?_⟩
    fin_cases this <;> rfl

theorem ending_encode (k : Parameters) (ps1 : PIdx) (c : Bool) (s : State) :
    ∃ t, commandMeaning k (.encode ps1 c) s = .next t ∧ Ending (.encode ps1 c) s t := by
  apply ending_buf (b := .enc) rfl rfl <;> intro t h <;> split at h <;> cases h
  · rename_i bytes hb
    have hl := encodePoint_length hb
    refine ⟨bytes, rfl, by rw [hl]; rfl, fun k => ?_⟩
    have hk : 65 ≤ Buf.enc.cap k := k.enc_ge
    rw [hl]
    split <;> omega
  · rename_i he
    unfold encodePoint at he
    split at he
    · cases he; exact ⟨by simp [errorsOf], rfl⟩
    · split_ifs at he

theorem ending_hkdf (k : Parameters) (s : State) : ∃ t, commandMeaning k .hkdf s = .next t ∧ Ending .hkdf s t := by
  apply ending_buf (b := .okm) rfl rfl <;> intro t h <;> unfold hkdfResult at h <;> split at h
  · split at h <;> cases h
    rename_i bytes hb
    have hl := hkdf_length hb
    refine ⟨bytes, rfl, by rw [hl]; rfl, fun _ => ?_⟩
    unfold hkdf at hb
    split_ifs at hb with h0
    rw [hl]
    show _ ≤ 8160
    omega
  · cases h
  · split at h <;> cases h
    rename_i he
    unfold hkdf at he
    split_ifs at he
    cases he
    exact ⟨by simp [errorsOf], rfl⟩
  · cases h; exact ⟨by simp [errorsOf], rfl⟩

/-- Every command answers a next state, for all parameters, and it is one of the endings (R205, R249). -/
theorem commandMeaning_ending (k : Parameters) (i : Instr) (s : State) :
    ∃ t, commandMeaning k i s = .next t ∧ Ending i s t := by
  cases i with
  | fadd rd rs1 rs2 => exact ending_fadd k rd rs1 rs2 s
  | fsub rd rs1 rs2 => exact ending_fsub k rd rs1 rs2 s
  | fmul rd rs1 rs2 => exact ending_fmul k rd rs1 rs2 s
  | finv rd rs1 => exact ending_finv k rd rs1 s
  | pinf pd => exact ending_pinf k pd s
  | pbase pd => exact ending_pbase k pd s
  | pset pd rs1 rs2 => exact ending_pset k pd rs1 rs2 s
  | oncurve rd rs1 rs2 => exact ending_oncurve k rd rs1 rs2 s
  | pneg pd ps1 => exact ending_pneg k pd ps1 s
  | padd pd ps1 ps2 => exact ending_padd k pd ps1 ps2 s
  | pdbl pd ps1 => exact ending_pdbl k pd ps1 s
  | smul pd rs1 ps2 => exact ending_smul k pd rs1 ps2 s
  | keygen rd pd => exact ending_keygen k rd pd s
  | ecdh rs1 ps2 => exact ending_ecdh k rs1 ps2 s
  | encode ps1 c => exact ending_encode k ps1 c s
  | decode pd => exact ending_decode k pd s
  | fsqrt rd rs1 => exact ending_fsqrt k rd rs1 s
  | hkdf => exact ending_hkdf k s

/-- What the next state of a command is, for all parameters: the form a proof about all commands cites. -/
theorem commandMeaning_cases {k : Parameters} {i : Instr} {s t : State} (h : commandMeaning k i s = .next t) :
    Ending i s t := by
  obtain ⟨u, hu, he⟩ := commandMeaning_ending k i s
  rw [h] at hu
  cases hu
  exact he

/-- At the default parameters the meaning of a command is `exec`'s. -/
@[simp] theorem commandMeaning_default (i : Instr) (s : State) : commandMeaning Config.parameters i s = exec i s := by
  cases i <;> rfl

/-- Only `HKDF` looks at the capacities. -/
theorem commandMeaning_of_curve_eq {k k' : Parameters} (hc : k.curve = k'.curve) {i : Instr} (h : i ≠ .hkdf)
    (s : State) : commandMeaning k i s = commandMeaning k' i s := by
  cases i <;> first | exact absurd rfl h | simp only [commandMeaning, hc]

/-- `commandMeaning_ending` at the defaults. -/
theorem exec_ending (i : Instr) (s : State) : ∃ t, exec i s = .next t ∧ Ending i s t := by
  simpa only [commandMeaning_default] using commandMeaning_ending Config.parameters i s

/-- `commandMeaning_cases` at the defaults. -/
theorem exec_cases {i : Instr} {s t : State} (h : exec i s = .next t) : Ending i s t :=
  commandMeaning_cases (k := Config.parameters) (by rwa [commandMeaning_default])

end Sys2Proof.Machine
end

