-- ==== Sys2Proof/Laws/Ladder.lean ====
section
/-! SUPPORT. The ladder of `Machine/ScalarUnit.lean` computes the multiple: its invariant (R141), and the well-formedness
of its result (R23 (d)). -/

namespace Sys2Proof.Machine

variable {c : Curve} [Fact c.p.Prime]

/-- One iteration of the ladder on a pair that stands for `(j·P, (j + 1)·P)` (R141). -/
theorem ladderStep_inv (hc : CurveSound c) {rr : Point × Point} {P : (weierstrass c).Point} {j : Nat}
    (h1 : rr.1.wf c = true) (h2 : rr.2.wf c = true) (g1 : groupPoint c rr.1 = j • P)
    (g2 : groupPoint c rr.2 = (j + 1) • P) (b : Bool) :
    (ladderStep c b rr).1.wf c = true ∧ (ladderStep c b rr).2.wf c = true ∧
      groupPoint c (ladderStep c b rr).1 = (2 * j + b.toNat) • P ∧
      groupPoint c (ladderStep c b rr).2 = (2 * j + b.toNat + 1) • P := by
  have hadd := groupPoint_add hc h1 h2
  have hd1 := groupPoint_dbl hc h1
  have hd2 := groupPoint_dbl hc h2
  cases b
  · refine ⟨hd1.1, hadd.1, ?_, ?_⟩
    · change groupPoint c (ptDbl c rr.1) = _
      rw [hd1.2, g1, ← add_nsmul]
      congr 1; simp; omega
    · change groupPoint c (ptAdd c rr.1 rr.2) = _
      rw [hadd.2, g1, g2, ← add_nsmul]
      congr 1; simp; omega
  · refine ⟨hadd.1, hd2.1, ?_, ?_⟩
    · change groupPoint c (ptAdd c rr.1 rr.2) = _
      rw [hadd.2, g1, g2, ← add_nsmul]
      congr 1; simp; omega
    · change groupPoint c (ptDbl c rr.2) = _
      rw [hd2.2, g2, ← add_nsmul]
      congr 1; simp; omega

/-- The ladder's invariant, for the iterations that remain (R141). -/
theorem ladder_inv (hc : CurveSound c) (k : Nat) {P : (weierstrass c).Point} :
    ∀ (i j : Nat) (rr : Point × Point), rr.1.wf c = true → rr.2.wf c = true →
      groupPoint c rr.1 = j • P → groupPoint c rr.2 = (j + 1) • P →
      (ladder c k i rr).1.wf c = true ∧ groupPoint c (ladder c k i rr).1 = (j * 2 ^ i + k % 2 ^ i) • P
  | 0, j, rr, h1, _, g1, _ => by
    refine ⟨h1, ?_⟩
    rw [ladder, g1]
    congr 1
    simp [Nat.mod_one]
  | i + 1, j, rr, h1, h2, g1, g2 => by
    obtain ⟨w1, w2, e1, e2⟩ := ladderStep_inv hc h1 h2 g1 g2 (k.testBit i)
    obtain ⟨w, e⟩ := ladder_inv hc k i _ _ w1 w2 e1 e2
    refine ⟨w, ?_⟩
    rw [ladder, e, Nat.mod_pow_succ, Nat.toNat_testBit]
    congr 1
    ring

/-- `scalar_mult(k, P)` is `(k mod n)·P`, a well-formed Point (R140, R141). -/
theorem scalarMult_group (hc : CurveSound c) (k : Nat) {P : Point} (hP : P.wf c = true) :
    (scalarMult c k P).wf c = true ∧ groupPoint c (scalarMult c k P) = (k % c.n) • groupPoint c P := by
  unfold scalarMult
  split_ifs with h0
  · simp [h0, Point.wf]
  · obtain ⟨w, e⟩ := ladder_inv hc (k % c.n) (P := groupPoint c P) (bitlen (k % c.n)) 0 (.inf, P) rfl hP
      (by simp) (by simp)
    refine ⟨w, ?_⟩
    rw [e, Nat.mod_eq_of_lt (lt_two_pow_bitlen _)]
    simp

end Sys2Proof.Machine
end

