-- ==== Sys2Proof/Laws/Order.lean ====
section
/-! SUPPORT. The order of the base point: `scalar_mult(n, G) = ∞` in its non-trivial form, `(n − 1)·G = −G` (R7, R143),
certified by the slopes of a chain of doublings and additions, so that no inverse is computed; with `n` prime, `d·G = ∞`
exactly for the multiples `d` of `n`. -/

namespace Sys2Proof.Machine

-- kernel checks one after another: each waits for those before it, and a waiting one holds a thread
set_option Elab.async false

/-- One link of the chain: double, add the base point, or subtract it. -/
inductive ChainStep where
  | double
  | addBase
  | subBase
  deriving DecidableEq, Repr

/-- The sum of `(x1, y1)` and `(x2, y2)` by the line of slope `m`, if `m` is the chord's slope. -/
def chordLink (c : Curve) (m : Nat) (x1 y1 x2 y2 : Word256) : Option Point :=
  if x1 ≠ x2 ∧ residue c (m * ((x2.toNat : Int) - x1.toNat) - ((y2.toNat : Int) - y1.toNat)) = 0 then
    some (thirdPoint c m x1.toNat y1.toNat x2.toNat)
  else none

/-- The double of `(x, y)` by the line of slope `m`, if `m` is the tangent's slope. -/
def tangentLink (c : Curve) (m : Nat) (x y : Word256) : Option Point :=
  if y ≠ 0 ∧ residue c (m * (2 * (y.toNat : Int)) - (3 * (x.toNat : Int) * x.toNat + c.a)) = 0 then
    some (thirdPoint c m x.toNat y.toNat x.toNat)
  else none

/-- One link of the chain, from the affine point `P`, with the affine base point `B` and its negative `B'`. -/
def chainLink (c : Curve) (B B' : Word256 × Word256) (k : ChainStep) (m : Nat) : Point → Option Point
  | .inf => none
  | .aff x y =>
    match k with
    | .double => tangentLink c m x y
    | .addBase => chordLink c m x y B.1 B.2
    | .subBase => chordLink c m x y B'.1 B'.2

/-- The multiple a link leads to. -/
def ChainStep.next : ChainStep → Int → Int
  | .double, j => 2 * j
  | .addBase, j => j + 1
  | .subBase, j => j - 1

/-- The whole chain, from the point `P` that is the `j`-th multiple. -/
def runChain (c : Curve) (B B' : Word256 × Word256) : List (ChainStep × Nat) → Point → Int → Option (Point × Int)
  | [], P, j => some (P, j)
  | (k, m) :: rest, P, j =>
    match chainLink c B B' k m P with
    | none => none
    | some Q => runChain c B B' rest Q (k.next j)

section
variable {c : Curve} [Fact c.p.Prime]

theorem chordLink_sound (hc : CurveSound c) {m : Nat} {x1 y1 x2 y2 : Word256} {Q : Point}
    (h1 : Point.wf c (.aff x1 y1) = true) (h2 : Point.wf c (.aff x2 y2) = true)
    (h : chordLink c m x1 y1 x2 y2 = some Q) :
    Q.wf c = true ∧ groupPoint c Q = groupPoint c (.aff x1 y1) + groupPoint c (.aff x2 y2) := by
  unfold chordLink at h
  split_ifs at h with hm
  cases h
  have w1 := wf_aff_iff.1 h1
  have w2 := wf_aff_iff.1 h2
  have hx : ((x1.toNat : Nat) : ZMod c.p) ≠ (x2.toNat : Nat) := fun e => hm.1 (word_eq_of_cast w1.1 w2.1 e)
  refine thirdPoint_of_slope hc h1 h2 (fun e => hx e.1) ?_
  have e := (ZMod.intCast_zmod_eq_zero_iff_dvd _ c.p).2 ((residue_eq_zero_iff hc.pos _).1 hm.2)
  push_cast at e ⊢
  rw [WeierstrassCurve.Affine.slope_of_X_ne hx, eq_div_iff (sub_ne_zero.2 hx)]
  linear_combination -e

theorem tangentLink_sound (hc : CurveSound c) {m : Nat} {x y : Word256} {Q : Point}
    (h1 : Point.wf c (.aff x y) = true) (h : tangentLink c m x y = some Q) :
    Q.wf c = true ∧ groupPoint c Q = groupPoint c (.aff x y) + groupPoint c (.aff x y) := by
  unfold tangentLink at h
  split_ifs at h with hm
  cases h
  have w1 := wf_aff_iff.1 h1
  have h2 := two_ne_zero_zmod hc
  have hy : ((y.toNat : Nat) : ZMod c.p) ≠ 0 := by
    rw [Ne, cast_eq_zero_of_lt w1.2.1]
    intro h0
    exact hm.1 (BitVec.eq_of_toNat_eq (by simpa using h0))
  have hne : ((y.toNat : Nat) : ZMod c.p) ≠ (weierstrass c).negY (x.toNat : Nat) (y.toNat : Nat) := by
    simp only [WeierstrassCurve.Affine.negY, weierstrass]
    intro h
    exact mul_ne_zero h2 hy (by linear_combination h)
  have hd : ((y.toNat : Nat) : ZMod c.p) - (weierstrass c).negY (x.toNat : Nat) (y.toNat : Nat) ≠ 0 :=
    sub_ne_zero.2 hne
  refine thirdPoint_of_slope hc h1 h1 (fun e => hne e.2) ?_
  have e := (ZMod.intCast_zmod_eq_zero_iff_dvd _ c.p).2 ((residue_eq_zero_iff hc.pos _).1 hm.2)
  rw [WeierstrassCurve.Affine.slope_of_Y_ne rfl hne, eq_div_iff hd]
  simp only [WeierstrassCurve.Affine.negY, weierstrass]
  push_cast at e ⊢
  linear_combination e

/-- A chain that runs through leads to the multiple it counts. -/
theorem runChain_sound (hc : CurveSound c) {B B' : Word256 × Word256}
    (hB : Point.wf c (.aff B.1 B.2) = true) (hB' : Point.wf c (.aff B'.1 B'.2) = true)
    (hneg : groupPoint c (.aff B'.1 B'.2) = -groupPoint c (.aff B.1 B.2)) :
    ∀ (l : List (ChainStep × Nat)) (P : Point) (j : Int) (Q : Point) (k : Int), P.wf c = true →
      groupPoint c P = j • groupPoint c (.aff B.1 B.2) → runChain c B B' l P j = some (Q, k) →
      Q.wf c = true ∧ groupPoint c Q = k • groupPoint c (.aff B.1 B.2)
  | [], P, j, Q, k, hP, g, h => by
    simp only [runChain, Option.some.injEq, Prod.mk.injEq] at h
    obtain ⟨rfl, rfl⟩ := h
    exact ⟨hP, g⟩
  | (s, m) :: rest, P, j, Q, k, hP, g, h => by
    simp only [runChain] at h
    split at h
    · cases h
    · rename_i P' hlink
      have key : P'.wf c = true ∧ groupPoint c P' = s.next j • groupPoint c (.aff B.1 B.2) := by
        cases P with
        | inf => simp [chainLink] at hlink
        | aff x y =>
          cases s with
          | double =>
            obtain ⟨w, e⟩ := tangentLink_sound hc hP hlink
            exact ⟨w, by rw [e, g, ← add_zsmul]; congr 1; simp only [ChainStep.next]; ring⟩
          | addBase =>
            obtain ⟨w, e⟩ := chordLink_sound hc hP hB hlink
            exact ⟨w, by rw [e, g, ← one_zsmul (groupPoint c (.aff B.1 B.2)), smul_smul, mul_one, ← add_zsmul]; rfl⟩
          | subBase =>
            obtain ⟨w, e⟩ := chordLink_sound hc hP hB' hlink
            refine ⟨w, ?_⟩
            rw [e, g, hneg, ChainStep.next, sub_zsmul, one_zsmul]
      exact runChain_sound hc hB hB' hneg rest P' _ Q k key.1 key.2 h

end

def orderSlopes0 : List (ChainStep × Nat) :=
  [(.double, 0xA249BCB3191802D3CB56FC75A8731F848E7B2CAF080F3477A4E4D904A671AF9D),
   (.double, 0xC2489A9EEF61DFA06D3741FF3B405300988BD0DB42A937859069B9CEFB576E35),
   (.double, 0x3D3F7094389059FB29D62C12AEA203C23C53CA0F84BA9265D34346D498D0CE10),
   (.double, 0x6FA44FAB12AB52AC931DD31283AF3F747D8609C5F053383C43A73240F7256E8A),
   (.double, 0xE9A817F547273AA32A7361A18E9620F2B838A409BE826CF083FED49B3C858688),
   (.double, 0xCBF7B81FBDEA68D4221B26A8E5A24B1CB5E9AAAD01ECD82899CD638E1942F764),
   (.double, 0xFC4B4BD92566C2AD98242459501CF92D7207904E764AB66789942B0325B9A3E8),
   (.double, 0x93FE002B120DC226D15B0F98B056D3392BFD56B35499E60A5F7AD1FF70675535),
   (.double, 0x59FAA582C6B4F84CF05A7F0A2F866F67A3845D45E19BA871C83298597ACC6389),
   (.double, 0xD2B8741587A7B2E52655FC308E92E0B0E32EE6E6B41D84EB93AAB4A3A4141961),
   (.double, 0x1C063129BA7B4A48B2E70F43844011C46BE00E0E9073B990AA60EFA9CEE08D40),
   (.double, 0xA2E3CB03C0248E9BADCBBCC1C7028566DE6E61B104009831A5104754CA52749D),
   (.double, 0x960FF72703B0A682D458E8C237F82E7C160C43F0388887300239F5CAF2144511),
   (.double, 0x928AC84A888EEECE1F740CDDB2FE2C3AD23B782D364F2F64E69FB00FF124A44A),
   (.double, 0x2F62106EDD7774F71F1F577BB87C80A69291FA99D469A7D590BB7EFE497F0E98),
   (.double, 0xDFF9619F1FED418640882FC607FBEF4AB0B4BB2EE9EB5EA61D7F347EAADFEB72)]

def orderSlopes1 : List (ChainStep × Nat) :=
  [(.double, 0x2BB34155D1C3E85258CD7587C389773CA8761DC07D32D1BC095F476C05A7C13E),
   (.double, 0xEDFC2E37FB69A62E021B6261A99DF3018DC9EEE2E4229D1CBFF1BA56B4F8E3D6),
   (.double, 0xB79E006A59B12E979226F397F11DA4E07F4C0C6E00D804571E0BE779C48EA25C),
   (.double, 0x45FC98DA6728684CF421D291DBDAA5438A2BBDE9EEDF856C54E1D2577A0D15A),
   (.double, 0x3F71D35F5943C9D82C6297D4739CA141CE18DD97535B82F9B6CBF6A3A3BC338F),
   (.double, 0xB063B021EA8C4D521A86BE70CEFE8CFCA350E9BA8C166C8838FE6446DFABA3E7),
   (.double, 0xC96CE208D5D84115B06C8101FBDFC996FC19127FB826057AA9A56A342393343F),
   (.double, 0x58CC0685F3B5BD459E0A56513CC139F2EF4C79222658880C7B9E910437232A37),
   (.double, 0xC714A5FF1E67F35E138DB56E27766A8F370DF7A9AAC6AFE2A684ADB2F9318A34),
   (.double, 0x244464508464873517783CC6E016573C75CC1D40A0821CA2006CCABA14E5AE68),
   (.double, 0x19942949A63311386DD5EB50AE3BD81D89FDA56A29528618285086A145BBC75C),
   (.double, 0x89FCEC8C449F2A8727481510BA958D286A3ED95B2B77E593D4A8E3BC100D5F1F),
   (.double, 0xF6C406113CA7142AB7578BBD87C1FCAC561785320D44621AE23C0BEC57DB9931),
   (.double, 0x1C544E23CEFCF6BDC7E2661841017CF1352B6CDAD766837A00109B5B701A002A),
   (.double, 0xE7AF93B02913D49F7FF08817EB8B2A9186CE83F590AACC4A439598E38234C827),
   (.double, 0xE353B7EAD6B8630CC720FC9E590A4B3BFDE6404EC154AD7D5F0E3FC795FE64A8)]

def orderSlopes2 : List (ChainStep × Nat) :=
  [(.subBase, 0x69F17B1D38890B71161E936F785871F30E6E559941DFFB77232C79D5399A6F6),
   (.double, 0xE7289190FBB5A7D7D62B51D40F3571670D41439C83A980A6EBF0C77129C5EA30),
   (.double, 0xC0C0F69007425DC498074987E7B1B2CC32E5EDF753F84C8D1E31E83A7F4C1FEF),
   (.double, 0xE2266A64FC9E96910BFCC391499F69E6E3862CDEE724BF5F53E52619A78D636B),
   (.double, 0xF7BE988964EC4116F418581F98955A9CA415E34883C7A464AEFB4B965B9E49F7),
   (.double, 0x4EB34C79827117C2632524E9F4D02FECF1EEDE4CDBEDD17BC9B364E5EE04DD99),
   (.double, 0x53B963E0E2A551F86B7527B4DA6CE25B70CC5B23592B9B7B4A6768E1EB9EAB20),
   (.double, 0xB8F8D77F98B07B91A739FE888EF94517D1E11EC5AE46114D5D9FCC91B1494E2F),
   (.double, 0x856480BF6645295B7CC166FCBF9CCB4213CA02B689E6A51515B002A54653B436),
   (.double, 0xE5BD602B7C75EFE5DD4BFEE34F6D5F15C12502DC3D6A454E8416BF7262EFD14D),
   (.double, 0x901938D044075D035FEC1E3DCC28585A76A2C4F101473D40D33FAF2D07A666EF),
   (.double, 0x225568746C8026C61A929D9EE21CC8B663B8B70852D3EAB403172B36DB27773A),
   (.double, 0x730E7F0E730508B34AF19C004AFC304711F461A3AD85AA214506BBB2D38216BC),
   (.double, 0x61BCDB4B66643B59A748A3260DE0D150BA66D53835998A7618465429D353B8BC),
   (.double, 0xC9651E62D6774D6D434978A729E20C44DBDF244C051785D459E9D397FAF72D77),
   (.double, 0xD5C0E76343A81B2FCCEBFE410EE5F059D6813035F76B381D8A4C32004E356535)]

def orderSlopes3 : List (ChainStep × Nat) :=
  [(.double, 0x33CA08F7F6CAF3B2BC2DD0597E53765CE9A3A459A2D6EC8C14FD62B9829C8036),
   (.double, 0xE3D88474BF049AA8C92E117118D8AE2192BE22C3AFC88BBB6D45984B246B29A7),
   (.double, 0x48E767DE0F22738D95A0CDE900E2811F059CC9B0B4D8F7C6662C971F6DD8540E),
   (.double, 0x40CE2D624CCBDDA2181D7203ECEBA6F86C74FFECF1099F60709AFD4E366AD7FC),
   (.double, 0x7CA5A95DBD0F238188C92BC10FE3120CA5CDC8C94F5543F619E7B4A285FAC63),
   (.double, 0x1695CB9ADD979F9B44BBA53CDDC3AF6EC9A9ADA1FCECCE7CC21C53EBFE9BF13F),
   (.double, 0xB52EF301BE713CD3721FB2EB26E9651C62DBD5611DBF05A2A082290BA0205C5B),
   (.double, 0x477A8D7B28FEFFAEE439432C1CB34E620D2B28F77D7A02DD8F8B7B25DA055F0A),
   (.double, 0x3DF23D02BE64203DA86B3586F55929B44D3B721A7D42D1F74C2790F568DEDB19),
   (.double, 0xC4EDAB784CC66E9DC3DDC0A1BB35098ABBEBB6DA1BD0379F4F35495B1810DA1B),
   (.double, 0x88FD5E6ED410C082C3CE11A91FB70B3F67E4A7765D05E18D7F947B38CA97F419),
   (.double, 0xF20A57EE70DF07D6CE91F0BD0A46160E3A6C07E71C958C66141E21069158D350),
   (.double, 0xF1FBC80729AB01A5CCB119D4F3C345CB8F969116D59A28F5BC535098ECC8E08C),
   (.double, 0xB6F56F88616F73E59CD055FEDF26A4E7E9B7D3805A7210F8280CE5F968813BDB),
   (.double, 0x95293B8C9D1B7CBEE1C6A40DDDBFA08124CD4C445226188841A5CE723091ED70),
   (.double, 0x5FC30199770D63F9306B8EB5B70C590E7A78844D7F32B7599BFFE25242913AFC)]

def orderSlopes4 : List (ChainStep × Nat) :=
  [(.double, 0xE6F5915845524817C9B060C18D8B717CAC8FCA080E26CBCD288BF75A7FAAB605),
   (.addBase, 0x6FF87C4D20EB575C61AFE131E9CA41E649C11844767ADE32265EE0D691FCA701),
   (.double, 0xC8C05126F210E5AC3B2E06F9445780C7483F1F68C8066E1CDADE66342D681731),
   (.double, 0xABA2E0CD638F25C821212DAE55F48218B83662612099000031DA86DC1C3FF004),
   (.double, 0xC4B5E18B28C6A61547DD3F01EB1F9A17A8DFB6F78D17C1E6577FBD9ACEB589),
   (.double, 0x6F2855C180AF082979AEA4E86420B127B1161F2F3834138E8FF6965ECCD7CEA6),
   (.double, 0x6D6D505A36E2E7AB1552A9F257F30A5217BAF8581BF1AFD0DB3E120234A41394),
   (.double, 0xD8D6E38D9D432FFB72AB57725BA7B3709D7A72F3B00EF74F6808CD7E7C2057DB),
   (.double, 0x7839685E3B1710944770F3DDE006BDCFEB593E07E9D906F999C4BC6A5D471D1C),
   (.double, 0x5A63731C3530D5689D028D4389FCEAB8DCB7913198EDCB70D54AFD32A3998A5C),
   (.double, 0x5F0746E3249F77A6C0F353FB7921586053340458CD476F05C3C73846DD2DF25B),
   (.double, 0x3426EB5453959B33D60A25EA4BB6AC7119C73426243E5747A3B1A00EDCC69E9B),
   (.double, 0x5F26B7FFD19FB2190AB8D9A5B0E28D140608D2C726F36EB3675FC16178456157),
   (.double, 0x8A35F537F0F4CD77EFA66B95D0C488491921725F2F3AF70E2DEBDBC0B57F5BCA),
   (.double, 0x9C98B2D4FFE66ED507D394AAC70806A5AE617C41AFF6A55A8AF84FBC43A5DC8),
   (.double, 0xF0BBC9D46A45E65178A790836B90227D984A59E17C96875E1B0CFE764F78B95F)]

def orderSlopes5 : List (ChainStep × Nat) :=
  [(.double, 0x3F0E4D74AD29A313ED4D3F32206CF2702B6C37B35C1F8FA0C820F147F780BE74),
   (.double, 0x3FC402DE064323959F37290378C396B57F37ADE8898957CBF9DCC1AAAD4C2201),
   (.double, 0x8F4BCFE22068DDD31AB5815386DD44ACD48226DF8D5B8203528C0B0DD5D5B42A),
   (.double, 0x4412E3FAE69F1C831C33F495810C93F5C79425437DDBF83F3DDBF01EB8DCD15D),
   (.double, 0xAA436C0918FB7E5399DB07BFFAA2BA11C9317B1773731B942BFC99A99C781B51),
   (.double, 0x710D2CFEBC880BFB929ED48B1E6216EE1905E373C2BEBDC88FC132126BB1171F),
   (.double, 0xDFB76D4678E8D1A6204A65CC56557EA03FC4B7A1A19B9C36A16D76E2F3C0331F),
   (.double, 0xE057424A2439BE06FE809E18450C785AA452E42A6512E71A1F789DC8CB99379D),
   (.double, 0xCA8DDCCE6399DF139CD1FA6E25A9B37309BADAB54D8E860AB02C05475FB31711),
   (.double, 0x744E3D567B6492C41D88350B331250E63D1F1033409481CFAD084AB38325D7B8),
   (.double, 0x2AD14B226204EA3E2E6675B10251D894D8B94A2E6E37854E1426F330B19013F7),
   (.double, 0x4D18FC51DB456DCB1777A095C491F770A5BF1E2B284ABEDA384AC93C62DC19EB),
   (.double, 0xDDB54F93C91EF6F425A3F002D39D5614F545B482C582DECCBD61DA7ACEEC7272),
   (.double, 0xDF3721981C40F7E752ADE7577D5AD3C059039724ACA4842100933BA835809903),
   (.double, 0x2E66DA5CD594372587952A453715D89703F6CDC0771764A32656BA172F1A108F),
   (.double, 0x6B1509FD5FAA51D7276CA18752CB78F5318B3830DB96F8BE5FF60FDB9157589C)]

def orderSlopes6 : List (ChainStep × Nat) :=
  [(.double, 0xC1B0B9ED9DE010ED00D97013814A531D0FC77C1840A7B19AA0841C8CDA594699),
   (.double, 0xC2EE99012A740E84052E865F33D3110E9CD383B18ABF5D18B30A287BEA6C065A),
   (.double, 0xF5D559EB2562F066AAD3A948347F6CA232BE32862E90A055EE1BB74490142C3A),
   (.double, 0x3A170B35D81701AA904B0883D669D3B4AD494DD2720A8B9070D24057AA2195DA),
   (.double, 0x34716A27AEF726C461F71C4C9498F25D0ACE1DE68C852DE77677816FA2B4FFDA),
   (.double, 0x7F0F1191A73BB7F2BC8537E1F6D9B0DAB3138EC933019F8A3E8F58C501C38862),
   (.double, 0xEF884E9262CB17DAB5DE3CFDB30B3EC98157910D49D6F8C884B4EE55A475849C),
   (.double, 0xDC00183F5144F7BB77B62E0CDBB32980488C523CD540E08C5A4CA9F94ECDDD85),
   (.double, 0xFF5ED67A7B88772B5A12ABDE3559CDFC65BD1644B9F8D39B2234D47C3F98E647),
   (.double, 0x831D55AF0CD9D778AE74A57A101F39A91A991C641D718696641542FFE094ADB4),
   (.double, 0x4D80FEEC84F2F1F45E8D2E6532C8B02FE1401173E12AEFBA1171A42300565009),
   (.double, 0xDAA5E843944273A1B96FF0FA22EF08DAE093F9EE72D3A8A5D4D659FBD1AD45D4),
   (.double, 0x5B21E7FA6587358F4A0719B7F24A0BE632A0C4926147F67A6B964359BD9B1426),
   (.double, 0x8173B5515B18F456C36D07A589D0809B78057D35363B00FBE45BE2C058DDFC01),
   (.double, 0x4120EE45F0DFBFFC5406F318FFB6992A6D5FD742D30354E96DC60DA44D0EBF5D),
   (.double, 0x1139097D931DB542104C09C5DD572DD846ED6E13FFF8713F446EB978518DD588)]

def orderSlopes7 : List (ChainStep × Nat) :=
  [(.double, 0x47056B6840AC33347B2F11CF8D35FFDB0E1A2B43C465E485071BA0206C46F3A2),
   (.double, 0x9FB98ACC9585B373C8A90EC8524BADED69CEB436CB0791BF8969AC3FE4628DEB),
   (.double, 0x89B1463A1BEFD83C14CED75E01358695401389E53AE8AE55863DB8CB7DD6A47B),
   (.double, 0xE19F1A7E5853FF6C51E5A935FB01665A29A3F474CE6354382056553577C560BE),
   (.double, 0x987F13515ECDDA315424C5DAB8F71290F34F338D008DF6E4ED5289AFAB30B7FB),
   (.double, 0xE28A5738D81EED433A6FACA9C96B9C56216B4E8A6CF2EADB366710A4E02F2EC5),
   (.double, 0x57329A53B80B26A25567325516B703BBF98EDC4FD1C413A46F922D9A7E33D1F0),
   (.double, 0x31F4642EA5DCD28766551A9AFBFB9808B6C2B7092BA9D93B89F08F4559CE5BC8),
   (.double, 0x60835709C1E53090A3E88139238956ACBED1D747B6B5191F37088858A778063C),
   (.double, 0x24B605A8127CD0BA15669A0685E90C4492929BD4BD7E85379FD0CFB7537CE808),
   (.double, 0xE13682B309F8CB0691EF7388591660292C8A5A5AFFDB52650C5A712A43B864D0),
   (.double, 0x71AE07F07C9178ADC4E8B1B9BBC13F80834B46598A8F2F105C544263ED6C5F62),
   (.double, 0x715B7E81CE4236F5EF4837B4B86E13D1A9B57437818B6AAB8AE55ED9F3297408),
   (.double, 0x547AE472AA91FC803DE755E3E1F408D44CE30B5EC0E6D9A4247CF83701DB7D68),
   (.double, 0x3DF3E6B77A4431723A77D513DB2A5789242848EFEC7686876FEF2CA6385EF625),
   (.double, 0xF495F958EF16BE4AC876C8B1254A767B14FD376816FAADF6241FD68CDCDA5C45)]

def orderSlopes8 : List (ChainStep × Nat) :=
  [(.double, 0xB7FB27BDDE87FF61B2AFD9BBD0930767CBC1CD4F403A9DAC55450D80F5B7AA7B),
   (.double, 0xC45AD7C85FA6A58B7D12729BDFAE488BA64087DAB9669071ED1A32BB519126AC),
   (.double, 0xF3053226903BB6DACFC2ACD5102BDC7183BF033D615613A3AC1EDA74B6A260C3),
   (.double, 0x31F3958D0F3DBD7BED040CF4CCE518631539EAADA6D39FAF18C4F5491428096),
   (.subBase, 0xB97BCBF7AEDF4947885841A27A61CB41CB81D48D2951362AE4211DA362D49C0C),
   (.double, 0x680225869B890AAA7FADE33F923A1DAE04D82EFC3010F0BBDF1ABCCD22DAD2F6),
   (.double, 0xC013308A652D79AE6CB3BC05AB034834341E5C8606B5F7DE83046BB0719FBF74),
   (.double, 0x2F4D9CF0CE71C87CB54553ACABD9FB072ED4F211CFE1E6451735B1E58F3BDD64),
   (.double, 0xC93A881B0672FFB3FC7284049DC7AD842A3B5B17AC88E348306823AC9D78FD33),
   (.subBase, 0xCE5B3A57F73D725EEA0B164122F890ACAB27C67234B204B3D15474D2E06ED38),
   (.double, 0x674BE996A79B1FFA91230F8457289247595753941F964900DA839DFEAA64D097),
   (.double, 0xEE5E7E6600DE627F082365E48C6F6688CA2C9EAD6D077753C293089BD937B41E),
   (.addBase, 0x373D4C333CE2CEEED8BFB1C5C322C1643EE0622651B5110F03A3D647DA8F469E),
   (.double, 0x9C51917EBF299F889A4A60B8FBE795BD7E95B1E228AF3FD9F4B02543F26861BE),
   (.double, 0xB9AE35E128E79B0FB8380B9F2479BC17EF6B7A7F20B6D197D2C8BCC0E99B7806),
   (.double, 0xA27C68F4B474E31E759B15CC347692181895B9FA84E85A91B39CC301A685DEAE)]

def orderSlopes9 : List (ChainStep × Nat) :=
  [(.subBase, 0xE780342A011707273EDB3254EF9B1BC892845F587EFC57AC5D77F0C62873947),
   (.double, 0xAF4AEBF985CFA16BA0A6D619D9A6E023514F5BB08C62D76B0420577C88407F52),
   (.double, 0xAD5555A05BCE9B2281EABCAB4E0AAAF83BECA658B0C6B730BF3E204F948E8DA0),
   (.addBase, 0xB243199FE49F5C091F241DD5F73074D6F9DEFCBF4F4C92720719ED4F8BC9C6A),
   (.double, 0x4F9B3DCBA0ACF0C1D8ABFFBCEFB58ED9F156172E5CFBCA860D1269D97086BABE),
   (.double, 0x6DEA7184272F86133D335E471117E0D969D6372B15BF0842745292BD7C605513),
   (.double, 0xA2EF83F07BA7F08DE49FF3F13E7B737DBBA4D9DCDA145E03A91454516046DDBA),
   (.subBase, 0x96BB79865975B582B7F5C69CE6E4C6E61981DEA2DD72BF2A9DD4FE6F19602D95),
   (.double, 0x5C5BCA7884FB48CD2047EBD2F3775E188741DDD03981D460B046946C7C38A40),
   (.double, 0xFDE6F471B8BF1468F3EF182ED4BA9CBA68F628ABE10ADD4D3A3C85F3A054CE8C),
   (.double, 0xAC8641EB2E98C496715985C39D898462A9AB59308E4C41B6CC0CD288EF139F2E),
   (.double, 0xA8A36021CE348096CF87A37CEF42EFBECE54C0ABA78DFFCC039366BC31B92E9A),
   (.double, 0xF9AFF106E25D2C8ECC87BA590EAC4B975AD6E6162DB71C2402D1C26D8220923A),
   (.double, 0x4CD7A986012B570B6CAA53613E566D02B2400633C1E50E38AAE7B261F36C37E0),
   (.subBase, 0xC096C06FBC4B3B55209F7C34C9071FC6325C997B22B7DE7EB9F5381EFD6E4063),
   (.double, 0xF0220EF4C024C40DD8D00B572D94878D2CD3AD5F95D68D4A4AF8F6FAF75A724B)]

def orderSlopes10 : List (ChainStep × Nat) :=
  [(.double, 0xE4922D5846656857C33BD1C038C9A3FFE346AD01FBD9AF8F05832FFACE530157),
   (.subBase, 0x7202C7AFFC7A50BD711145ABF2FA229CFB4FDBDA1D739A1DE9C41CFFD56E1D91),
   (.double, 0xD57C3228383FEE3BD35D0E7E333622B0B4D3BDCB8ADB02D46115C5F1700BAB27),
   (.double, 0x7FB02D5AD6B5769931F71F77184DBF760E8EFE1D2218B3C9BED2E38F2A20D744),
   (.subBase, 0x9C79847A323C07FEF93227CC226F7DBE65FAF0FA1D91FF0CB47026B0D968576B),
   (.double, 0xD7CD460258DBE17F6FAFB7235F8B793160E6DC23D1B81FFC9B5CE47C76825E8),
   (.double, 0xD60CEAB94BE498101DAAC78A48BB92F6819A557DA91EE10BFB44C7CC1BC5B148),
   (.subBase, 0xAA00181EA0A7D6C2B8D6504496D275DE8E9E35A851015839B5A886780F457F06),
   (.double, 0xEAEBE2565498E786F845EE6D0EC7DD6E79BCF4DF8B62E0004C5C1B46C5808850),
   (.double, 0x9961EA94F4A8698E7727DF90818947886E5E631E5FBC7BC11129C4C7C12EEB59),
   (.double, 0xB32D34E92E8D64A5CEA57E780479690F4C41F4CF32CFF51DBB23909133BE787A),
   (.subBase, 0xB7B274A006F00D968E9EE496EC5D28C49E5B47F8AAD291049D52BF94A4326BEB),
   (.double, 0xAAF7C995942E22201475109594191F23BF3D4B4F63B69F5F9684B423B179126D),
   (.double, 0x7FB01AFFAF5D0F5EB8E5FD457DA10D40BCEC18A352476A981882FDDF286FB3B0),
   (.subBase, 0x7E1E4A7F2EF33843CBED77E41310287065EBA83ECFE771D992F8C91891289F3B),
   (.double, 0x4A370EC9FECF54B22643110841D65D9B9A30CFE56C3AB2A83EBD00265554FCDA)]

def orderSlopes11 : List (ChainStep × Nat) :=
  [(.double, 0x26021CD70550E8CDBA42F3E607E8D47FC17E9F01548CF8991EB7EA0920D2A1E2),
   (.addBase, 0x2DEF9B7A035FCA5C5CA4D2629525AA72CD247734826468A96100C57D13B620F3),
   (.double, 0x1687868D0C3C942A86F6A2F6BC2B0B0014DA5B25D28DE6968DD58EC932777EA8),
   (.double, 0x2E1D6D99905CA613107AE06AD50B69EE23145B1A91E4AFB8A2CA74B9207129A5),
   (.addBase, 0x27017D11D4C6232F17F307BCB17CFCDDDB5277532C1DB5D7A26B069642824801),
   (.double, 0xE7ED2AC716B9238CA020AD0ECAEDA589291DA236D6727446B8783A9CF49E8C9C),
   (.double, 0x179440185A766506DA237BF7DED17E28E244C6FE2950C5666C0CA76BF14BFA09),
   (.double, 0x68527F6FEB1C85B31C9F32A00511B66694ABC9192097FF368B5274950771C2E3),
   (.subBase, 0x96599D4AE2B7B0B6D0017CC5930B01086E530F9534B085C63A8D2F63520A33D9),
   (.double, 0x328311006166DA0E2D955527C15989DCADF4E3FD67E2FA1041C595D4D5BB5318),
   (.double, 0x7E087002E55CAE077C9697C99E58A03E348C2CF038320CDADBA6FDBDC2ABDA18),
   (.double, 0x874749FEF062ABEBE4FCD8D6DE89523C51B44716B020F206D464B45CEBD0227D),
   (.addBase, 0xCE6A70E77F583AD3529C9611F8A2E617769DDB2B2E549BD7EEEB66E814BDA627),
   (.double, 0xE3A00DB65A6F050408D9317BAA0F1567E829AFBA97621D77148591927AF2E326),
   (.double, 0x8051F6DAF0A28FAABD7202A70CA45F29A9C8CE0564BDA201469512ED15BFA3FA),
   (.subBase, 0x3E82D8BF2A6C08009C38DA5FEB60152B3525EE4BD09702FCBC81D8B3DCAF9E73)]

def orderSlopes12 : List (ChainStep × Nat) :=
  [(.double, 0x741F8AA350503EA01341866F871B5A14E908C03520268BEC4BE17EB8B459909C),
   (.double, 0xA9B85F87E96DC150A3F67E20C15E9CDBAE0D48F1C0640A0E47CC786E207D180),
   (.double, 0xF9B85F84F2BDF0FB5EC317013D34C36DD67AFCC916D987094044B47E712B59AE),
   (.double, 0xAE90D49C8DB0B27291C1DF9999828CB52D475E6236EAF9E9544F90369BF6CA03),
   (.subBase, 0x1ED6A0CE44D804465BD4398D36D3B62BE6037F00BAD3F94352ABECE442CA274C),
   (.double, 0x3050F99B1337C62004E120E368B9C0F76B837CBA50537FF5E210843B7F72C84),
   (.double, 0x359CB63DD575FE116D4334B14409AC9B98ABC4FBAE71C5208E980E73C5464763),
   (.addBase, 0xA7EF8597F774242922E244582E1D4F0D9E1A17537942D7472744430563766750),
   (.double, 0x6A2510347F3909D4AE791700D1C75D9E6D7D86873F7C2BA63C705E1F38DF9186),
   (.double, 0x66A8A2869B273C4FB21F8EC51837F2A7B32D7533E6343E4F04E7C2E4C9B3384D),
   (.double, 0xBAF1770B0EE37A8638600BE1BD6DACBCEB39716B474509E4450DAD36D5EB4211),
   (.double, 0x39D68FAD14979E32E1C1742F8994BFA462196AD6F889CBFA5FC513709630AE06),
   (.subBase, 0x3BF3D12F552C47336D86ACC6CCBD8C9CFCE3C888BA2E4F45C4B33169AC639EBE),
   (.double, 0xA062B7B604D46E0EEC641B05BEA0471DB15E82688F5826C1C34637BBD3EDEC1A),
   (.double, 0x9FABDE1CEAEB992E80017B12D617AE37F2035299330091887021CEB827CCBB36),
   (.addBase, 0x230D7A4A3DCDA864775EB4FFE8F319D14834441848FC304AD231797811C1302B)]

def orderSlopes13 : List (ChainStep × Nat) :=
  [(.double, 0x5470A5C84B32E321637D2E208201A340A01FFECA339BD0AA80979C4F1170EC87),
   (.double, 0x7E0A3376D947900A7A41AA6D2F81B1952D4C5C95A3D6FBF1603466442E7F0620),
   (.double, 0xE05D1F4553924FE6C8C2D7E3065B67BDE5D0C944415FEF1DE4EE9E5BB461835),
   (.double, 0xD6BE9E6DAEF03DA7F6225309237433FD6749D3BA48E55744D1086A32681A48B5),
   (.double, 0x232359521F0E0A6D5EBDB8EDFEC99AA6083F85EE92D280A53CF82F10076328A7),
   (.addBase, 0x5A5329ACAED2AE0B821C3FF92A8374A4F3815E42D8D135E1AA12F39B7C454904),
   (.double, 0x38DDAB01E96DF9B5601DAEEE9C80B49ED240C47E2ECC960852018922ABA272F1),
   (.double, 0x95B7FAB8A622FFF06AD5E5702363A19DAE3220B75D3AE3BA3A0B13EE14053131),
   (.addBase, 0xFC4D96ECEA839FEF3458AFC42DD2AEBBE8DF8127D87932BB6A0166B464F0A6E0),
   (.double, 0xD61AAA1D2FA2F18ED3AE5954BA603AAC5F3335E1A9F5DFD0CE48BF670B6CC41),
   (.double, 0x81CF2F0DA04A9A8D5E2B8AAF129425555DD3450F63C48F5298A3172117C9BBE5),
   (.double, 0xF89EFF93CD1946C771EC51AEE6652FBC4BE5BD27ECB8A5F9582E29D31D54CA7F),
   (.double, 0x3A4B5E9EEDB02DD5B649EB3D51B50B6BAF8C4A66AA3A21B5AF35118AA4FFA512),
   (.subBase, 0xDFD04ACCF49A9F6D30C54F3ACC46D1D8FAD2365F367AB18C6E37175B86258A73),
   (.double, 0xD8833940FE6BD86636EA00D04162F80381A184A21C5014203D4CF7987EDFE17B),
   (.double, 0x34E0318EF4CCEB053031CAF723EFABAA1BC24C69E63A9D8F8719E91CDE261341)]

def orderSlopes14 : List (ChainStep × Nat) :=
  [(.addBase, 0xEE0303E26B8A5A74DF66D02B058E0D9F4A9E0D6F22924CA506B2323D5FB93C30),
   (.double, 0xD95F37764B743C597565D7A009DB30E5502AF684E94DA9D625D479A4DA676426),
   (.double, 0x36A248D4B2142E8D6CB762D846055B230335BF0185FD6C14EBF656324AA5EDD8),
   (.double, 0x2002ED545F4921C8FBF9A5F6F5FA2C8EDEF4A2331A1403D7AAE2F2CC3CF48B85),
   (.double, 0xA1D08D14AA5FA9CA5041D4B64B39C48EF9C3911DDF9B783DB72B07DE10BB2E11),
   (.subBase, 0xDA7B5FFFAC2D087471887FD57D6ED53F305EB2590043FEB932B21CE6BCBE4F1),
   (.double, 0xD09CE7F0934D504499E52D3E5D9F7AB890E49F60D9724291073339595EE46115),
   (.double, 0x26BFC29828A0C811598D9AD4DC75CC28A845B4E413816C4E030FD2F578A6340D),
   (.double, 0x83BDABD78EBB9258673AD87E51C29145A54066EEB2DD307F2A7046814C863870),
   (.subBase, 0xF8C950629A6AE0064AB65809D196BB7C77B83BEC6FEFA964AB0CAD46938D7D0F),
   (.double, 0x1E24E23BE43EBBE98EDBE61394C3A6ED01A7F4444AC3D5E4CCE9F95F1F1B30DB),
   (.double, 0xAF7B1BEDF0C2915B1DA8D0B4B2C1A7744F9B9AEA67BF3DCD991F35C737A3050B),
   (.addBase, 0x13FC0AC0CCEECBFCEF5B641A46EBB694322A1E2CE1795F62409055263AB9751E),
   (.double, 0x5A5373071C8410C59F30302988B7937D96D93D0326ACDFADEFDCD8AF26E1CCFC),
   (.double, 0x3FE3B0951F395EB073E1F22902D9293B6A9263FE3218D9F309BB55820CC0F697),
   (.double, 0x12CF251AA4CFEE094CCF2904F7F6BA0DD636E60FA7D239BAA9AD8E7A31F1DE29)]

def orderSlopes15 : List (ChainStep × Nat) :=
  [(.subBase, 0x508A4103AA4FB9B44ED1B547E7191E548C4DE6F104A4EA3DFB5F1E0D0CB781AE),
   (.double, 0xF99A98C677DF5FA909F310E9C1E4D2E4D7661C86650DD382F74D78255DBB4D17),
   (.double, 0x1F7BFCA8004798E8724C6E51D327AF0C8B9DCFCED075624EA910059C69819217),
   (.addBase, 0xEA61EBD2D3942E8EBBF5CD314577B42B656C17A07624EC80F29D95B705BC8078),
   (.double, 0xA3DE9069471FAA342B1F94816143E859488A3C6C1EF406CA679068B552E10A7D),
   (.double, 0x6AC99A648F4E996286ABBB092D030359E86BC32762E924230FFFB328CE2A3D2F),
   (.subBase, 0xC83CAD68877DB0D60EE2B039E3E4F06AC590D19DF1513EA7499B8DCAD22B4137),
   (.double, 0x322A3DBFF95330D8CC3E4D62A6A23AD2DF649AA57716BA592858DA4A01F6A9FA),
   (.double, 0xDB71ED36608DF6CECD3B847F64E0C9D9E954EAF9BB12D5196E7CFEFCE9505BAB),
   (.subBase, 0xE094F9E6A5D2F3F42CA288838583BCA6DA59F333D1745928A3C7DB55C049F0CC),
   (.double, 0x2DC0C0C579AC7183EAF439248FDBD6EB07EE6AFC5CF1E930CB52448F2D0BD9A8),
   (.double, 0x7F0DC23E5824F6E6A2E10A108D993C07168FA07AC98771ADF36F5313FCB1459E),
   (.subBase, 0x64877C7B1FC2BC5B49B492D268D93E1DA5DCFEDECF0F1FA4CEC9BA4437C5AB78),
   (.double, 0xD179F413AE3BFD5AB16B4FA72C59C7CFF3DE907E09F0FE2E6784AA84FDD8DF5B),
   (.double, 0xF3651F1948B6DA881C2419F75D7CF4B68AFC8DF485801AC4B19C7755233C6F0C),
   (.double, 0xBE23251D063AF957B0C233D8CAAAD3245A71D35CEE8041A4DA77EB003FC49840)]

def orderSlopes16 : List (ChainStep × Nat) :=
  [(.double, 0xD6773521EB6E218AD74D5D85CC0A9A6F3F123DBE6A34EC9433B8A7639848538D),
   (.addBase, 0x74FBCC00F83F05C522B19A41D601F5976A98ACDEB88EC6DB4FB9793DB14A41FC),
   (.double, 0xF0D694DC7BE1553458E68EFFFC38C561EBB91B25C1907F1C5BCFE499CE2CF812),
   (.double, 0x3C04B10E2030D40C3CCE02CAD7A27F18D87CF02A6E1CFE5919E9BC8FE7D30F3B),
   (.subBase, 0x98B369CF6954A89376E40788DB863A6783C9FD10121C4CB038CA75FE0DCF9A1B),
   (.double, 0xAFE96CD8F3779A7AE32B41413A9C0718E3D373A5AD02482A4E50C9908D8D88F2),
   (.double, 0xA7CDE4C843EEDE7AAC73D8F7E8803D2AD47AAD6FE34630E67F888A76C379A59),
   (.double, 0xEC7AC66029540DE800244440F67577A50AD5DC9DCB0F81E1BD5EE9D37E69AB90),
   (.double, 0x28F2A049DF395FEAF34A1AC4B9D14ED79FE51C1CD49D6A4AEC93E92289096E63),
   (.double, 0x76FCC3B8DEC52CBE1C6584DD2B12CEB245A036A856487D1C9A43C0C93D0B5328),
   (.double, 0xA0383D13ACBD2CC4C34932BEE13B5E59CF96D1D3468BC0C96BD504BD709A3A28),
   (.subBase, 0x5F2548556BC3A96FEB64124921E0C0534EA9075B91FD7520E5C5BFB3165A819A),
   (.double, 0xE04398830685690DF5E208459A98DEFD8832B5196E2BE0B8DF82C16C77F7F5),
   (.double, 0xFCD96FFEBEB7A47EE4590684B7C9A2E0B8FA03BEABD83654D7D76CDBBCD60335),
   (.double, 0xA740A7573695F572D3C174ED4560CBD69EEE3A8E77BE3734BCA252C05A6933A0),
   (.addBase, 0x7878B68AD2A204D83440137779A31F0DE81AF36B23833099EB30DB2CF80E1B27)]

def orderSlopes17 : List (ChainStep × Nat) :=
  [(.double, 0x6B17744891C14FED2D65C73839D7005E1A4C8EC075408CF501561F9450E72B86),
   (.double, 0x4C99796AE98E55B9258B388A7B380F8A3FEE10EA8DA2F32EC08DD753AA34776F),
   (.subBase, 0xC19659FF5A6E8747AB72C561F93B058B92AC88C37A5F9079206663B510ADAD0),
   (.double, 0x9C82ADC5593BE14823416D07F9F833DB891A9F58CA31315A0DCA08778EDD591C),
   (.double, 0xFF5FA2B8EAA15963BCF8F4D08AD28483801B21E4AB054838B84B2C1B7EEC2911),
   (.double, 0x32057CFEC2C8B40D8810F0FD0F1BC108F4D4BF6FBC21B9A5E7E521A26D065898),
   (.addBase, 0xFAA423937F8C1BF47C309E43F7FBF1010C092E445135E079E111EEA484EAE5F),
   (.double, 0x8EF7AF95992811D27114C308BC6FDB9F604CEDECEAA0AFAC88469B7533A97871),
   (.double, 0x6693EB8873B08036C280692A62D8326E3D8102CB893DA346D647B54A158A61EF),
   (.subBase, 0xE091A1846ABC8FE2C94233D1A2DF3F348D91E0197790B8A5037A3EDDA2B3B1C2),
   (.double, 0x4439830783F364FF8326337036FD5B26868085C15009F456A82A1B0880FF7D67),
   (.double, 0x2F41D190D91E77680712007969891E3CA1DEEEAA9415496A1D4E302A4DF1E551),
   (.double, 0xE60A0CB18C966612D38CC039609F7FF3A2DE07EFEAF428B0A465C13B23621739),
   (.addBase, 0xC75A30555E78AAD072191476BBA91D8369AA498D01B13B2B7B4707E205F20A94),
   (.double, 0xDA1583E3AD79AE5ECFF6EBDA1B774DC7DC00D278DD25680F869CC30585DCF0F),
   (.double, 0xD3718F57D9DB98EB139F5F4E3A41E28D035F899D9E91A8107EFE15B79A27C629)]

def orderSlopes18 : List (ChainStep × Nat) :=
  [(.double, 0xCEBB240EDC61826BAAA5297C41E7A8137AF81C8113DC9C20EE1933583E3F7494),
   (.addBase, 0x8B391B2D59C8E63AB3FA0A40B860337B5AAFF347B3228E323104D498DA3B6418),
   (.double, 0x3D46E9EF5AED4AA9FEA6810DE4D5E822316732BCBDFBFF222B7EA641D0F4C236),
   (.double, 0x2D45701FDA7E3D7F4ECB15FD4FEFEBE30788A1A6861A4F6CA1431CD8C329E135),
   (.addBase, 0x6D1AB84B6BFC3DD20FE5EB07933FF7AC3F81AC780B4E9C3EC8F773B97DDA779F),
   (.double, 0xF5C92D577891D8D5E9308B7380703C776943D20DF29457A43A089EFED2324E08),
   (.double, 0xE88B7DE3F5FA482BE7B122800F456E1688C08618EE100504D19DA17644A084FC),
   (.addBase, 0xFE3B635C4752201380648DD222EA1A37A8B56B31539FFDEFFFF0BAB1E20A6457),
   (.double, 0x13E1AACE41718A701CFC777D12D8D44229A07D9DEB4B28C637EE82E18B6B8866),
   (.double, 0x56436AB347A1162845D4C6B9CBE939ADEA2C4F90C169D40A97E58C7FBAEC7A9B),
   (.addBase, 0x9B77EC69617F51069699BEC6F62797E61FDA164D9AD2F53842780FB17E45FA62),
   (.double, 0x510D851C47BAF8984835E68C845E2BB545D52977FC75A523D9580F6237793779),
   (.double, 0xB9FDED35E510EAF5658921BFE5042746076D1426453AA249DCB6BD3495E18EC8),
   (.double, 0x755D14D98FF4CBF80F733A8570B5B20DD2D2E8C0FECC7EBE2D31BBA5E4B33192),
   (.double, 0x83362C631C75685E3615425A3BF2D24AD3517A0496F1D94B79CC3FDABF3FE22A)]

/-- The slopes of the additions and doublings that lead from `G` to `(n − 1)·G`. -/
def orderSlopes : List (ChainStep × Nat) :=
  orderSlopes0 ++ orderSlopes1 ++ orderSlopes2 ++ orderSlopes3 ++ orderSlopes4 ++ orderSlopes5 ++
  orderSlopes6 ++ orderSlopes7 ++ orderSlopes8 ++ orderSlopes9 ++ orderSlopes10 ++ orderSlopes11 ++
  orderSlopes12 ++ orderSlopes13 ++ orderSlopes14 ++ orderSlopes15 ++ orderSlopes16 ++ orderSlopes17 ++
  orderSlopes18

/-- `−G`, as a pair. -/
def negBase : Word256 × Word256 :=
  (BitVec.ofNat 256 Config.curve.gx, BitVec.ofNat 256 (Config.curve.p - Config.curve.gy))

theorem ptNeg_basePoint : ptNeg Config.curve (basePoint Config.curve) = .aff negBase.1 negBase.2 := by decide +kernel

theorem orderSlopes_run :
    runChain Config.curve (BitVec.ofNat 256 Config.curve.gx, BitVec.ofNat 256 Config.curve.gy) negBase orderSlopes
      (basePoint Config.curve) 1 = some (.aff negBase.1 negBase.2, (Config.curve.n : Int) - 1) := by
  decide +kernel

/-- `n·G = ∞` in the group (R7). -/
theorem order_smul_base (inst : Fact Config.curve.p.Prime) :
    Config.curve.n • groupPoint Config.curve (basePoint Config.curve) = 0 := by
  have hG := basePoint_wf
  obtain ⟨wneg, gneg⟩ := groupPoint_neg curve_sound hG
  rw [ptNeg_basePoint] at wneg gneg
  obtain ⟨-, e⟩ := runChain_sound curve_sound (B := (BitVec.ofNat 256 Config.curve.gx, BitVec.ofNat 256 Config.curve.gy))
    hG wneg gneg orderSlopes _ 1 _ _ hG (one_zsmul _).symm orderSlopes_run
  rw [gneg, sub_zsmul, one_zsmul, natCast_zsmul] at e
  have : groupPoint Config.curve (basePoint Config.curve)
      = groupPoint Config.curve (.aff (BitVec.ofNat 256 Config.curve.gx) (BitVec.ofNat 256 Config.curve.gy)) := rfl
  rw [this]
  have h2 := congrArg (· + groupPoint Config.curve (.aff (BitVec.ofNat 256 Config.curve.gx) (BitVec.ofNat 256 Config.curve.gy))) e
  simpa [basePoint] using h2.symm

/-- `d·G = ∞` exactly when `n` divides `d`: `G` has the prime order `n` (R7). -/
theorem smul_base_eq_zero_iff (inst : Fact Config.curve.p.Prime) (d : Nat) :
    d • groupPoint Config.curve (basePoint Config.curve) = 0 ↔ Config.curve.n ∣ d := by
  have hne : groupPoint Config.curve (basePoint Config.curve) ≠ 0 := by
    rw [basePoint, groupPoint_aff (nonsingular_of_wf curve_sound basePoint_wf)]
    exact WeierstrassCurve.Affine.Point.some_ne_zero _
  have hord : addOrderOf (groupPoint Config.curve (basePoint Config.curve)) = Config.curve.n :=
    haveI : Fact Config.curve.n.Prime := ⟨prime_curve_n⟩
    addOrderOf_eq_prime (order_smul_base inst) hne
  rw [← hord]
  exact (addOrderOf_dvd_iff_nsmul_eq_zero).symm

/-- `scalar_mult(d, G)` is not infinity for `d` in `[1, n − 1]` (R151). -/
theorem scalarMult_base_ne_inf {d : Nat} (h1 : 1 ≤ d) (h2 : d < Config.curve.n) :
    scalarMult Config.curve d (basePoint Config.curve) ≠ .inf := by
  have := curve_p_prime
  intro h
  obtain ⟨-, e⟩ := scalarMult_group curve_sound d basePoint_wf
  rw [h, groupPoint_inf, Nat.mod_eq_of_lt h2] at e
  have := Nat.le_of_dvd h1 ((smul_base_eq_zero_iff curve_p_prime d).1 e.symm)
  omega

end Sys2Proof.Machine
end

