-- ==== Sys2Proof/Laws/GroupOrder.lean ====
section
/-! SUPPORT. The curve has exactly `n` points ("prime-order", R7), so every well-formed Point has `n·P = ∞`, a fact the spec
takes from Lagrange's theorem without proof (R141, G4). The group has at most `2p + 1 < 3n` elements and `n` divides their
number; `2n` is excluded because the cubic has no root mod `p`, so that no point has `y = 0` (R117). -/

namespace Sys2Proof.Machine

-- kernel checks one after another: each waits for those before it, and a waiting one holds a thread
set_option Elab.async false

/-! The cubic has no root: `X^p − X` is invertible modulo `X³ + a·X + b`. -/

/-- A polynomial of degree at most two, by its coefficients. -/
abbrev Quad := Nat × Nat × Nat

/-- The product of two polynomials modulo `X³ + a·X + b` and `p`. -/
def quadMul (c : Curve) (u v : Quad) : Quad :=
  let c3 := u.2.1 * v.2.2 + u.2.2 * v.2.1
  let c4 := u.2.2 * v.2.2
  (residue c (u.1 * v.1 - c.b * c3), residue c (u.1 * v.2.1 + u.2.1 * v.1 - c.a * c3 - c.b * c4),
    residue c (u.1 * v.2.2 + u.2.1 * v.2.1 + u.2.2 * v.1 - c.a * c4))

/-- `u^e · acc`, the bits of `e` from the least significant. -/
def quadPow (c : Curve) : Nat → Quad → Nat → Quad → Quad
  | 0, _, _, acc => acc
  | fuel + 1, u, e, acc =>
    quadPow c fuel (quadMul c u u) (e / 2) (if e % 2 = 1 then quadMul c acc u else acc)

/-- The value of a polynomial at `x`. -/
def quadEval {c : Curve} (x : ZMod c.p) (u : Quad) : ZMod c.p := u.1 + u.2.1 * x + u.2.2 * x ^ 2

section
variable {c : Curve}

theorem quadEval_mul (hp : 0 < c.p) {x : ZMod c.p} (hx : x ^ 3 + c.a * x + c.b = 0) (u v : Quad) :
    quadEval x (quadMul c u v) = quadEval x u * quadEval x v := by
  simp only [quadEval, quadMul, residue_zmod hp]
  push_cast
  linear_combination (-((u.2.1 * v.2.2 + u.2.2 * v.2.1 : ZMod c.p)) - (u.2.2 * v.2.2 : ZMod c.p) * x) * hx

theorem quadEval_pow (hp : 0 < c.p) {x : ZMod c.p} (hx : x ^ 3 + c.a * x + c.b = 0) :
    ∀ (fuel : Nat) (u : Quad) (e : Nat) (acc : Quad), e < 2 ^ fuel →
      quadEval x (quadPow c fuel u e acc) = quadEval x acc * quadEval x u ^ e
  | 0, u, e, acc, he => by
    have he0 : e = 0 := by simpa using he
    simp [quadPow, he0]
  | fuel + 1, u, e, acc, he => by
    have he2 : e / 2 < 2 ^ fuel := by rw [pow_succ] at he; omega
    rw [quadPow, quadEval_pow hp hx fuel _ _ _ he2, quadEval_mul hp hx, ← pow_two, ← pow_mul]
    split
    · rw [quadEval_mul hp hx]
      conv_rhs => rw [show e = 2 * (e / 2) + 1 by omega, pow_succ]
      ring
    · conv_rhs => rw [show e = 2 * (e / 2) by omega]

end

/-- Taking `X` away. -/
theorem quadEval_sub_X {c : Curve} (hp : 0 < c.p) (x : ZMod c.p) (u : Quad) :
    quadEval x (u.1, u.2.1 + (c.p - 1), u.2.2) = quadEval x u - x := by
  have h1 : ((c.p - 1 : Nat) : ZMod c.p) = -1 := by
    rw [Nat.cast_sub hp, ZMod.natCast_self, Nat.cast_one, zero_sub]
  simp only [quadEval]
  rw [Nat.cast_add, h1]
  ring

/-- `X^p` modulo the cubic. -/
def frobenius : Quad := quadPow Config.curve 256 (0, 1, 0) Config.curve.p (1, 0, 0)

/-- The inverse of `X^p − X` modulo the cubic. -/
def frobeniusInverse : Quad :=
  (0xa969487079f1744798bf0de6fded091b66e9d328eb0645fe5d979d1339b7f47f,
    0xa4a08891884100c13323460107a8d28eede4387fa3e6e9bfebec9f6d72d0b5cc,
    0x4cde11cf86cb876cd59cf0115813c55af0ecd3cda667d98bb9a347a56aa74a6d)

theorem frobenius_inverse :
    quadMul Config.curve frobeniusInverse
      (frobenius.1, frobenius.2.1 + (Config.curve.p - 1), frobenius.2.2) = (1, 0, 0) := by
  decide +kernel

/-- `x³ + a·x + b` has no root mod `p`. -/
theorem cubic_no_root (inst : Fact Config.curve.p.Prime) (x : ZMod Config.curve.p) :
    x ^ 3 + Config.curve.a * x + Config.curve.b ≠ 0 := by
  intro hx
  have hp := curve_p_pos
  have h1 := congrArg (quadEval x) frobenius_inverse
  rw [quadEval_mul hp hx] at h1
  have h2 : quadEval x frobenius = x := by
    rw [frobenius, quadEval_pow hp hx 256 _ _ _ curve_p_lt]
    simp [quadEval, ZMod.pow_card]
  have h3 : quadEval x (frobenius.1, frobenius.2.1 + (Config.curve.p - 1), frobenius.2.2) = 0 := by
    rw [quadEval_sub_X hp, h2, sub_self]
  rw [h3, mul_zero] at h1
  simp [quadEval] at h1

section
variable {c : Curve} [Fact c.p.Prime]

/-- A point of the group, as a pair of field elements; infinity has none. -/
def pointCoords : (weierstrass c).Point → Option (ZMod c.p × ZMod c.p)
  | .zero => none
  | .some x y _ => some (x, y)

omit [Fact c.p.Prime] in
theorem pointCoords_injective : Function.Injective (pointCoords (c := c)) := by
  rintro (_ | ⟨x, y, h⟩) (_ | ⟨x', y', h'⟩) e
  · rfl
  · simp [pointCoords] at e
  · simp [pointCoords] at e
  · simp only [pointCoords, Option.some.injEq, Prod.mk.injEq] at e
    obtain ⟨rfl, rfl⟩ := e
    rfl

theorem group_finite : Finite (weierstrass c).Point := Finite.of_injective _ pointCoords_injective

/-- A point other than infinity is known by its abscissa and one bit: whether its ordinate is a chosen one. -/
theorem card_group_le : Nat.card (weierstrass c).Point ≤ 2 * c.p + 1 := by
  classical
  let chosen : ZMod c.p → ZMod c.p := fun x =>
    if h : ∃ y, (weierstrass c).Nonsingular x y then h.choose else 0
  let key : (weierstrass c).Point → Option (ZMod c.p × Bool)
    | .zero => none
    | .some x y _ => some (x, decide (y = chosen x))
  have hinj : Function.Injective key := by
    rintro (_ | ⟨x, y, h⟩) (_ | ⟨x', y', h'⟩) e
    · rfl
    · simp [key] at e
    · simp [key] at e
    · simp only [key, Option.some.injEq, Prod.mk.injEq, decide_eq_decide] at e
      obtain ⟨rfl, e⟩ := e
      have hch : (weierstrass c).Nonsingular x (chosen x) := by
        have hex : ∃ y, (weierstrass c).Nonsingular x y := ⟨y, h⟩
        simp only [chosen, dif_pos hex]
        exact hex.choose_spec
      have key2 : y = y' := by
        by_cases hy : y = chosen x
        · rw [hy, (e.1 hy)]
        · have hy' : y' ≠ chosen x := fun h0 => hy (e.2 h0)
          rcases WeierstrassCurve.Affine.Y_eq_of_X_eq h.1 hch.1 rfl with r | r
          · exact absurd r hy
          rcases WeierstrassCurve.Affine.Y_eq_of_X_eq h'.1 hch.1 rfl with r' | r'
          · exact absurd r' hy'
          rw [r, r']
      subst key2
      rfl
  have hp : c.p ≠ 0 := (Fact.out : c.p.Prime).ne_zero
  have : NeZero c.p := ⟨hp⟩
  have hcard := Nat.card_le_card_of_injective key hinj
  have h2 : Nat.card (Option (ZMod c.p × Bool)) = 2 * c.p + 1 := by
    rw [Nat.card_eq_fintype_card, Fintype.card_option, Fintype.card_prod, ZMod.card, Fintype.card_bool]
    ring
  omega

end

/-- The curve has exactly `n` points (R7, "prime-order"). -/
theorem card_group (inst : Fact Config.curve.p.Prime) :
    Nat.card (weierstrass Config.curve).Point = Config.curve.n := by
  have hfin := group_finite (c := Config.curve)
  have hle := card_group_le (c := Config.curve)
  have hn := prime_curve_n
  have hord : addOrderOf (groupPoint Config.curve (basePoint Config.curve)) = Config.curve.n := by
    have : Fact Config.curve.n.Prime := ⟨hn⟩
    refine addOrderOf_eq_prime (order_smul_base inst) ?_
    rw [basePoint, groupPoint_aff (nonsingular_of_wf curve_sound basePoint_wf)]
    exact WeierstrassCurve.Affine.Point.some_ne_zero _
  obtain ⟨k, hk⟩ : Config.curve.n ∣ Nat.card (weierstrass Config.curve).Point := hord ▸ addOrderOf_dvd_natCard _
  have hpos : 0 < Nat.card (weierstrass Config.curve).Point := Nat.card_pos
  have hlt : 2 * Config.curve.p + 1 < Config.curve.n * 3 := by decide +kernel
  have hk3 : k < 3 := by
    by_contra h
    have := Nat.mul_le_mul_left Config.curve.n (show 3 ≤ k by omega)
    omega
  have hk0 : k ≠ 0 := by rintro rfl; omega
  have hk2 : k ≠ 2 := by
    rintro rfl
    have : Fact (Nat.Prime 2) := ⟨Nat.prime_two⟩
    obtain ⟨P, hP⟩ := exists_prime_addOrderOf_dvd_card' 2 (hk ▸ Dvd.intro_left _ rfl)
    have h2P : P + P = 0 := by
      rw [← two_nsmul, ← hP]
      exact addOrderOf_nsmul_eq_zero P
    rcases P with _ | ⟨x, y, h⟩
    · rw [← WeierstrassCurve.Affine.Point.zero_def, addOrderOf_zero] at hP
      omega
    · have h2 := two_ne_zero_zmod curve_sound
      by_cases hy : y = (weierstrass Config.curve).negY x y
      · have hy0 : y = 0 := by
          simp only [WeierstrassCurve.Affine.negY, weierstrass] at hy
          exact (mul_eq_zero.1 (show (2 : ZMod Config.curve.p) * y = 0 by linear_combination hy)).resolve_left h2
        have heq := (WeierstrassCurve.Affine.equation_iff _ _).1 h.1
        simp only [weierstrass, hy0] at heq
        exact cubic_no_root inst x (by linear_combination -heq)
      · rw [WeierstrassCurve.Affine.Point.add_self_of_Y_ne hy] at h2P
        exact WeierstrassCurve.Affine.Point.some_ne_zero _ h2P
  have hk1 : k = 1 := by omega
  rw [hk, hk1, mul_one]

/-- `n·P = ∞` for every element of the group (R141). -/
theorem order_smul (inst : Fact Config.curve.p.Prime) (P : (weierstrass Config.curve).Point) :
    Config.curve.n • P = 0 := by
  have := group_finite (c := Config.curve)
  rw [← card_group inst]
  exact card_nsmul_eq_zero'

/-- `k·P = ∞` for a point other than infinity exactly when `n` divides `k` (R141, R153). -/
theorem smul_eq_zero_iff (inst : Fact Config.curve.p.Prime) {P : (weierstrass Config.curve).Point} (hP : P ≠ 0)
    (k : Nat) : k • P = 0 ↔ Config.curve.n ∣ k := by
  have : Fact Config.curve.n.Prime := ⟨prime_curve_n⟩
  rw [← addOrderOf_eq_prime (order_smul inst P) hP]
  exact (addOrderOf_dvd_iff_nsmul_eq_zero).symm

/-- `scalar_mult(k, P)` is `k·P` for every well-formed Point (R141). -/
theorem scalarMult_smul (inst : Fact Config.curve.p.Prime) (k : Nat) {P : Point} (hP : P.wf Config.curve = true) :
    groupPoint Config.curve (scalarMult Config.curve k P) = k • groupPoint Config.curve P := by
  rw [(scalarMult_group curve_sound k hP).2]
  conv_rhs => rw [← Nat.mod_add_div k Config.curve.n]
  rw [add_nsmul, mul_comm, mul_nsmul, smul_comm]
  simp [order_smul inst]

end Sys2Proof.Machine
end

