-- ==== Sys2Proof/Laws/Memory.lean ====
section
/-! SUPPORT. The laws of a buffer's contents: a read after a write, the canonical form kept, the capacity kept; and of byte
strings read from and written to it. -/

namespace Sys2Proof.Machine

theorem Memory.read_nil (off : Nat) : Memory.read [] off = Memory.unlisted := rfl

theorem Memory.read_cons (c : Host.Cell) (rest : Memory) (off : Nat) :
    Memory.read (c :: rest) off = if c.1 = off then c.2 else Memory.read rest off := rfl

theorem Memory.write_nil (off : Nat) (v : Byte) :
    Memory.write [] off v = if v = Memory.unlisted then [] else [(off, v)] := rfl

/-- A write beyond the first entry. -/
theorem Memory.write_cons_lt {c : Host.Cell} {rest : Memory} {off : Nat} {v : Byte} (h : c.1 < off) :
    Memory.write (c :: rest) off v = c :: Memory.write rest off v := by
  rw [Memory.write, if_pos h]

/-- A write at the first entry's offset. -/
theorem Memory.write_cons_eq {c : Host.Cell} {rest : Memory} {off : Nat} {v : Byte} (h : c.1 = off) :
    Memory.write (c :: rest) off v = if v = Memory.unlisted then rest else (off, v) :: rest := by
  simp only [Memory.write, if_neg (show ¬c.1 < off by omega), if_pos h]

/-- A write below the first entry. -/
theorem Memory.write_cons_gt {c : Host.Cell} {rest : Memory} {off : Nat} {v : Byte} (h : off < c.1) :
    Memory.write (c :: rest) off v = if v = Memory.unlisted then c :: rest else (off, v) :: c :: rest := by
  simp only [Memory.write, if_neg (show ¬c.1 < off by omega), if_neg (show ¬c.1 = off by omega)]

theorem Memory.wf_cons {c : Host.Cell} {rest : Memory} :
    Memory.wf (c :: rest) ↔ (∀ d ∈ rest, c.1 < d.1) ∧ c.2 ≠ Memory.unlisted ∧ Memory.wf rest := by
  simp only [Memory.wf, List.pairwise_cons, List.forall_mem_cons]
  tauto

/-- An offset below every listed one reads as unlisted. -/
theorem Memory.read_of_lt {off : Nat} : ∀ {m : Memory}, (∀ c ∈ m, off < c.1) → Memory.read m off = Memory.unlisted
  | [], _ => rfl
  | c :: rest, h => by
    have h1 : off < c.1 := h c (by simp)
    rw [Memory.read_cons, if_neg (by omega)]
    exact Memory.read_of_lt fun d hd => h d (by simp [hd])

/-- A byte that has just been written reads as written; every other byte is unchanged. -/
theorem Memory.read_write (off a : Nat) (v : Byte) : ∀ {m : Memory}, Memory.wf m →
    Memory.read (Memory.write m off v) a = if a = off then v else Memory.read m a
  | [], _ => by
    rw [Memory.write_nil]
    split_ifs with hv ha ha
    · rw [hv]; rfl
    · rfl
    · rw [Memory.read_cons, if_pos ha.symm]
    · rw [Memory.read_cons, if_neg (Ne.symm ha)]
  | c :: rest, hm => by
    obtain ⟨hs, hn, hrest⟩ := Memory.wf_cons.1 hm
    have hlow : ∀ x, x ≤ c.1 → Memory.read rest x = Memory.unlisted := fun x hx =>
      Memory.read_of_lt fun d hd => by have := hs d hd; omega
    rcases lt_trichotomy c.1 off with h | h | h
    · rw [Memory.write_cons_lt h, Memory.read_cons, Memory.read_write off a v hrest, Memory.read_cons]
      split_ifs <;> first | rfl | omega
    · rw [Memory.write_cons_eq h, Memory.read_cons]
      split_ifs with hv h2 h3 h3
      · rw [h2, hv]; exact hlow off (by omega)
      · omega
      · rfl
      · rw [Memory.read_cons, if_pos h3.symm]
      · omega
      · rw [Memory.read_cons, if_neg (by omega)]
    · rw [Memory.write_cons_gt h]
      split_ifs with hv h2 h2
      · rw [h2, hv, Memory.read_cons, if_neg (by omega)]; exact hlow off (by omega)
      · rfl
      · rw [Memory.read_cons, if_pos h2.symm]
      · rw [Memory.read_cons, if_neg (Ne.symm h2)]

/-- A write lists no offset but the written one and those listed before. -/
theorem Memory.mem_write {off : Nat} {v : Byte} {d : Host.Cell} : ∀ {m : Memory},
    d ∈ Memory.write m off v → d ∈ m ∨ (d = (off, v) ∧ v ≠ Memory.unlisted)
  | [], h => by
    rw [Memory.write_nil] at h
    split_ifs at h with hv <;> simp_all
  | c :: rest, h => by
    rcases lt_trichotomy c.1 off with hc | hc | hc
    · rw [Memory.write_cons_lt hc, List.mem_cons] at h
      rcases h with h | h
      · exact .inl (by simp [h])
      · rcases Memory.mem_write h with h | h
        · exact .inl (by simp [h])
        · exact .inr h
    · rw [Memory.write_cons_eq hc] at h
      split_ifs at h with hv
      · exact .inl (by simp [h])
      · rcases List.mem_cons.1 h with h | h
        · exact .inr ⟨h, hv⟩
        · exact .inl (by simp [h])
    · rw [Memory.write_cons_gt hc] at h
      split_ifs at h with hv
      · exact .inl h
      · rcases List.mem_cons.1 h with h | h
        · exact .inr ⟨h, hv⟩
        · exact .inl h

/-- A write keeps the canonical form. -/
theorem Memory.wf_write (off : Nat) (v : Byte) : ∀ {m : Memory}, Memory.wf m → Memory.wf (Memory.write m off v)
  | [], _ => by
    rw [Memory.write_nil]
    split_ifs with hv
    · exact ⟨List.Pairwise.nil, by simp⟩
    · exact Memory.wf_cons.2 ⟨by simp, hv, List.Pairwise.nil, by simp⟩
  | c :: rest, hm => by
    obtain ⟨hs, hn, hrest⟩ := Memory.wf_cons.1 hm
    rcases lt_trichotomy c.1 off with h | h | h
    · rw [Memory.write_cons_lt h, Memory.wf_cons]
      refine ⟨fun d hd => ?_, hn, Memory.wf_write off v hrest⟩
      rcases Memory.mem_write hd with hd | hd
      · exact hs d hd
      · rw [hd.1]; exact h
    · rw [Memory.write_cons_eq h]
      split_ifs with hv
      · exact hrest
      · exact Memory.wf_cons.2 ⟨fun d hd => by have := hs d hd; simp only; omega, hv, hrest⟩
    · rw [Memory.write_cons_gt h]
      split_ifs with hv
      · exact hm
      · refine Memory.wf_cons.2 ⟨fun d hd => ?_, hv, hm⟩
        rcases List.mem_cons.1 hd with rfl | hd
        · exact h
        · have := hs d hd; simp only; omega

/-- A write below the capacity keeps a buffer's contents canonical and below it. -/
theorem Buf.holds_write {k : Capacities} {b : Buf} {m : Memory} (h : b.Holds k m) {off : Nat} (hoff : off < b.cap k)
    (v : Byte) : b.Holds k (Memory.write m off v) := by
  refine ⟨Memory.wf_write off v h.1, fun d hd => ?_⟩
  rcases Memory.mem_write hd with hd | hd
  · exact h.2 d hd
  · rw [hd.1]; exact hoff

/-- Writing a byte string keeps a buffer's contents canonical and below its capacity, if the string fits. -/
theorem Buf.holds_memWrite {k : Capacities} {b : Buf} : ∀ (bytes : List Byte) {m : Memory} {off : Nat}, b.Holds k m →
    off + bytes.length ≤ b.cap k → b.Holds k (memWrite m off bytes)
  | [], _, _, h, _ => h
  | v :: vs, _, off, h, hlen => by
    rw [List.length_cons] at hlen
    exact Buf.holds_memWrite vs (Buf.holds_write h (by omega) v) (by omega)

theorem wf_memWrite : ∀ (bytes : List Byte) {m : Memory} (off : Nat), Memory.wf m → Memory.wf (memWrite m off bytes)
  | [], _, _, h => h
  | v :: vs, _, off, h => wf_memWrite vs (off + 1) (Memory.wf_write off v h)

/-- A byte string that has been written reads as written; every other byte is unchanged (R12). -/
theorem read_memWrite (a : Nat) : ∀ (bytes : List Byte) {m : Memory} (off : Nat), Memory.wf m →
    Memory.read (memWrite m off bytes) a
      = if off ≤ a ∧ a < off + bytes.length then bytes.getD (a - off) 0 else Memory.read m a
  | [], m, off, _ => by
    simp only [memWrite, List.length_nil]
    rw [if_neg (by omega)]
  | v :: vs, m, off, h => by
    rw [memWrite, read_memWrite a vs (off + 1) (Memory.wf_write off v h), Memory.read_write off a v h]
    simp only [List.length_cons]
    by_cases h1 : a = off
    · subst h1
      rw [if_neg (by omega), if_pos rfl, if_pos (by omega)]
      simp
    · rw [if_neg h1]
      by_cases h2 : off + 1 ≤ a ∧ a < off + 1 + vs.length
      · rw [if_pos h2, if_pos (by omega), show a - off = (a - (off + 1)) + 1 by omega]
        simp
      · rw [if_neg h2, if_neg (by omega)]

@[simp] theorem memRead_length (m : Memory) : ∀ (k off : Nat), (memRead m off k).length = k
  | 0, _ => rfl
  | k + 1, off => by simp [memRead, memRead_length m k (off + 1)]

theorem memRead_getD (m : Memory) : ∀ (k off i : Nat), i < k → (memRead m off k).getD i 0 = Memory.read m (off + i)
  | 0, _, _, h => by omega
  | k + 1, off, 0, _ => by simp [memRead]
  | k + 1, off, i + 1, h => by
    have := memRead_getD m k (off + 1) i (by omega)
    simp only [memRead, List.getD_cons_succ]
    rw [this]
    congr 1
    omega

/-- Two byte strings of one length with the same bytes are equal. -/
theorem bytes_ext {s t : List Byte} (hlen : s.length = t.length) (h : ∀ i < s.length, s.getD i 0 = t.getD i 0) :
    s = t := by
  refine List.ext_getElem hlen fun i h1 h2 => ?_
  have := h i h1
  rwa [List.getD_eq_getElem _ _ h1, List.getD_eq_getElem _ _ h2] at this

/-- Reading back a byte string that has just been written gives it. -/
theorem memRead_memWrite {m : Memory} (hm : Memory.wf m) (off : Nat) (bytes : List Byte) :
    memRead (memWrite m off bytes) off bytes.length = bytes := by
  refine bytes_ext (by simp) fun i hi => ?_
  rw [memRead_length] at hi
  rw [memRead_getD _ _ _ _ hi, read_memWrite _ _ _ hm, if_pos (by omega)]
  congr 1
  omega

end Sys2Proof.Machine
end

