-- ==== Sys2Proof/Laws/Step.lean ====
section
/-! SUPPORT. Everything a step can do, said once, for all parameters: `advance_cases`, and `step_cases`, its case at the
defaults; and when a step runs the issued command. -/

namespace Sys2Proof.Machine

/-- The issued command runs when no host access is made before its end (R59). -/
theorem advance_of_running (k : Parameters) {s : State} {w : Word32} (hr : s.running = some w)
    (hu : ∀ a rest, s.hostIn = a :: rest → a.whileBusy = false) : advance k s = runCommand k w s := by
  unfold advance
  rw [hr]
  cases h : s.hostIn with
  | nil => rfl
  | cons a rest => simp [hu a rest h]

/-- A step runs the issued command, when no host access is made before its end. -/
theorem step_of_running {s : State} {w : Word32} (hr : s.running = some w)
    (hu : ∀ a rest, s.hostIn = a :: rest → a.whileBusy = false) : step s = runCommand Config.parameters w s :=
  advance_of_running Config.parameters hr hu

/-- An illegal word raises `IllegalCommand` (R73); any other runs its command. -/
theorem runCommand_cases {k : Parameters} {w : Word32} {s t : State} (h : runCommand k w s = .next t) :
    (∃ i, decodeWord w = .ok i ∧ commandMeaning k i s = .next t) ∨
      ((∃ e, decodeWord w = .error e) ∧ t = s.raise .illegalCommand) := by
  unfold runCommand at h
  split at h
  · exact .inl ⟨_, ‹_›, h⟩
  · cases h; exact .inr ⟨⟨_, ‹_›⟩, rfl⟩

/-- What a step does: nothing (idle, no access); a host access, idle or busy; a command's end; an illegal word's error. -/
theorem advance_cases {k : Parameters} {s t : State} (h : advance k s = .next t) :
    (s.running = none ∧ s.hostIn = [] ∧ t = s) ∨
    (∃ a rest, s.hostIn = a :: rest ∧
      (s.running = none ∧ t = hostWhenIdle k { s with hostIn := rest } a.op ∨
        s.running ≠ none ∧ a.whileBusy = true ∧ t = hostWhenBusy k.curve { s with hostIn := rest } a.op)) ∨
    (∃ w, s.running = some w ∧
      ((∃ i, decodeWord w = .ok i ∧ commandMeaning k i s = .next t) ∨
        ((∃ e, decodeWord w = .error e) ∧ t = s.raise .illegalCommand))) := by
  unfold advance at h
  split at h
  · cases h; exact .inl ⟨‹_›, ‹_›, rfl⟩
  · cases h; exact .inr (.inl ⟨_, _, ‹_›, .inl ⟨‹_›, rfl⟩⟩)
  · exact .inr (.inr ⟨_, ‹_›, runCommand_cases h⟩)
  · split_ifs at h with hb
    · cases h; exact .inr (.inl ⟨_, _, ‹_›, .inr ⟨by simp [*], hb, rfl⟩⟩)
    · exact .inr (.inr ⟨_, ‹_›, runCommand_cases h⟩)

/-- What a step does at the defaults. -/
theorem step_cases {s t : State} (h : step s = .next t) :
    (s.running = none ∧ s.hostIn = [] ∧ t = s) ∨
    (∃ a rest, s.hostIn = a :: rest ∧
      (s.running = none ∧ t = hostWhenIdle Config.parameters { s with hostIn := rest } a.op ∨
        s.running ≠ none ∧ a.whileBusy = true ∧ t = hostWhenBusy Config.curve { s with hostIn := rest } a.op)) ∨
    (∃ w, s.running = some w ∧
      ((∃ i, decodeWord w = .ok i ∧ exec i s = .next t) ∨
        ((∃ e, decodeWord w = .error e) ∧ t = s.raise .illegalCommand))) := by
  have h' := advance_cases (k := Config.parameters) h
  simp only [commandMeaning_default] at h'
  exact h'

end Sys2Proof.Machine
end

