-- ==== Sys2Proof/Tests/Slice0.lean ====
section
/-! SUPPORT. Tests of the model on fixed values, each expected value from `spec/95_test_vectors.md` or from hand calculation
by the cited rule; and a witness for the hypotheses of every statement. -/

namespace Sys2Proof.Tests

-- kernel checks one after another: each waits for those before it, and a waiting one holds a thread
set_option Elab.async false

open Sys2Proof.Machine Sys2Proof.Spec

/-! ## The formats (R71, R75): each check refuses an ill-formed word (95_test_vectors.md, 2.1) -/

theorem test_wf_unassigned_opcode : [(0x00000000 : Word32), 0x00000005, 0x00000017, 0x00000021, 0x00000032,
    0x00000043, 0x00000051, 0x000000FF].all
    (fun w => (Fields.ofWord w).wellFormed == false) = true := by decide +kernel

theorem test_wf_integer_index : [(0x00000803 : Word32), 0x00008003, 0x00080001].all
    (fun w => (Fields.ofWord w).wellFormed == false) = true := by decide +kernel

theorem test_wf_point_index : [(0x00000820 : Word32), 0x00000420, 0x00000441, 0x00004014, 0x00040015].all
    (fun w => (Fields.ofWord w).wellFormed == false) = true := by decide +kernel

theorem test_wf_field_must_be_zero : [(0x00000131 : Word32), 0x00001010, 0x00010004, 0x00000150].all
    (fun w => (Fields.ofWord w).wellFormed == false) = true := by decide +kernel

theorem test_wf_c_flag : [(0x00100011 : Word32), 0x00100050].all
    (fun w => (Fields.ofWord w).wellFormed == false) = true := by decide +kernel

theorem test_wf_z_field : [(0x00200050 : Word32), 0x80000003].all
    (fun w => (Fields.ofWord w).wellFormed == false) = true := by decide +kernel

theorem test_wf_accepts : [(0x00077703 : Word32), 0x00037320, 0x00101040, 0x00000050].all
    (fun w => (Fields.ofWord w).wellFormed == true) = true := by decide +kernel

/-! ## Decoding: one word per command, written out bit by bit from R70 and R72 as `Z`, `C`, `S2`, `S1`, `D`, `OP` -/

/-- `FADD r0, r1, r2`. -/
theorem test_decode_fadd : decodeWord 0b00000000000_0_0010_0001_0000_00000001 = .ok (.fadd 0 1 2) := by decide +kernel

/-- `FSUB r5, r4, r2`. -/
theorem test_decode_fsub : decodeWord 0b00000000000_0_0010_0100_0101_00000010 = .ok (.fsub 5 4 2) := by decide +kernel

/-- `FMUL r7, r7, r7`. -/
theorem test_decode_fmul : decodeWord 0b00000000000_0_0111_0111_0111_00000011 = .ok (.fmul 7 7 7) := by decide +kernel

/-- `FINV r0, r1`. -/
theorem test_decode_finv : decodeWord 0b00000000000_0_0000_0001_0000_00000100 = .ok (.finv 0 1) := by decide +kernel

/-- `PINF pt3`. -/
theorem test_decode_pinf : decodeWord 0b00000000000_0_0000_0000_0011_00010000 = .ok (.pinf 3) := by decide +kernel

/-- `PBASE pt0`. -/
theorem test_decode_pbase : decodeWord 0b00000000000_0_0000_0000_0000_00010001 = .ok (.pbase 0) := by decide +kernel

/-- `PSET pt1, r0, r1`. -/
theorem test_decode_pset : decodeWord 0b00000000000_0_0001_0000_0001_00010010 = .ok (.pset 1 0 1) := by decide +kernel

/-- `ONCURVE r2, r0, r1`. -/
theorem test_decode_oncurve : decodeWord 0b00000000000_0_0001_0000_0010_00010011 = .ok (.oncurve 2 0 1) := by
  decide +kernel

/-- `PNEG pt1, pt0`. -/
theorem test_decode_pneg : decodeWord 0b00000000000_0_0000_0000_0001_00010100 = .ok (.pneg 1 0) := by decide +kernel

/-- `PADD pt2, pt1, pt0`. -/
theorem test_decode_padd : decodeWord 0b00000000000_0_0000_0001_0010_00010101 = .ok (.padd 2 1 0) := by decide +kernel

/-- `PDBL pt1, pt0`. -/
theorem test_decode_pdbl : decodeWord 0b00000000000_0_0000_0000_0001_00010110 = .ok (.pdbl 1 0) := by decide +kernel

/-- `SMUL pt3, r7, pt3`. -/
theorem test_decode_smul : decodeWord 0b00000000000_0_0011_0111_0011_00100000 = .ok (.smul 3 7 3) := by decide +kernel

/-- `KEYGEN r7, pt3`. -/
theorem test_decode_keygen : decodeWord 0b00000000000_0_0000_0011_0111_00110000 = .ok (.keygen 7 3) := by decide +kernel

/-- `ECDH r1, pt2`. -/
theorem test_decode_ecdh : decodeWord 0b00000000000_0_0010_0001_0000_00110001 = .ok (.ecdh 1 2) := by decide +kernel

/-- `ENCODE pt1, 1`. -/
theorem test_decode_encode : decodeWord 0b00000000000_1_0000_0001_0000_01000000 = .ok (.encode 1 true) := by
  decide +kernel

/-- `DECODE pt1`. -/
theorem test_decode_decode : decodeWord 0b00000000000_0_0000_0000_0001_01000001 = .ok (.decode 1) := by decide +kernel

/-- `FSQRT r0, r1`. -/
theorem test_decode_fsqrt : decodeWord 0b00000000000_0_0000_0001_0000_01000010 = .ok (.fsqrt 0 1) := by decide +kernel

/-- `HKDF`. -/
theorem test_decode_hkdf : decodeWord 0b00000000000_0_0000_0000_0000_01010000 = .ok .hkdf := by decide +kernel

/-- The example of R78: `PADD pt2, pt1, pt0` assembles to `0x00001215`. -/
theorem test_encode_padd : encodeInstr (.padd 2 1 0) = 0x00001215 := by decide +kernel

/-- Reserved encodings are refused, by name (R75). -/
theorem test_decode_refuses : decodeWord 0x00000000 = .error .unassignedOpcode ∧
    decodeWord 0x00000803 = .error .malformedFields ∧ decodeWord 0x00100011 = .error .malformedFields := by
  decide +kernel

/-! ## Helpers -/

/-- The next state of an outcome. -/
def after : Host.Outcome State Fault Refusal → State
  | .next t => t
  | .fault _ => State.reset
  | .refused _ => State.reset

/-- `r[1] = a`, `r[2] = b`, the rest as after reset. -/
def regs (a b : Nat) : State := (State.reset.setReg 1 (BitVec.ofNat 256 a)).setReg 2 (BitVec.ofNat 256 b)

/-- `pt[0] = P`, `pt[1] = Q`, the rest as after reset. -/
def points (P Q : Point) : State := (State.reset.setPoint 0 P).setPoint 1 Q

/-- An idle CORE and the host's next accesses. -/
def idle (l : List HostAccess) : State := { State.reset with hostIn := l }

/-- A CORE that runs the command `w`, and the host's next accesses. -/
def busy (w : Word32) (l : List HostAccess) : State := { State.reset with running := some w, hostIn := l }

/-- `2G`, `3G` and `−G` of 95_test_vectors.md, 2.3. -/
abbrev twoG : Point := .aff 0x7CF27B188D034F7E8A52380304B51AC3C08969E277F21B35A60B48FC47669978
  0x07775510DB8ED040293D9AC69F7430DBBA7DADE63CE982299E04B79D227873D1
abbrev threeG : Point := .aff 0x5ECBE4D1A6330A44C8F7EF951D4BF165E6C6B721EFADA985FB41661BC6E7FD6C
  0x8734640C4998FF7E374B06CE1A64A2ECD82AB036384FB83D9A79B127A27D5032
abbrev fiveG : Point := .aff 0x51590B7A515140D2D784C85608668FDFEF8C82FD1F5BE52421554A0DC3D033ED
  0xE0C17DA8904A727D8AE1BF36BF8A79260D012F00D4D80888D1D0BB44FDA16DA4
abbrev minusG : Point := .aff 0x6B17D1F2E12C4247F8BCE6E563A440F277037D812DEB33A0F4A13945D898C296
  0xB01CBD1C01E58065711814B583F061E9D431CCA994CEA1313449BF97C840AE0A

abbrev gx : Nat := 0x6B17D1F2E12C4247F8BCE6E563A440F277037D812DEB33A0F4A13945D898C296
abbrev gy : Nat := 0x4FE342E2FE1A7F9B8EE7EB4A7C0F9E162BCE33576B315ECECBB6406837BF51F5

/-- `ENC` holds the compressed form with the given prefix byte of the abscissa `gx`. -/
def encoded (lead : Byte) : State :=
  { State.reset with enc := memWrite [] 0 (lead :: i2osp32 (BitVec.ofNat 256 gx)), encLen := 33 }

/-- `ENC` holds the uncompressed form of `(gx, y)` with the given prefix byte. -/
def encodedLong (lead : Byte) (y : Nat) : State :=
  { State.reset with
    enc := memWrite [] 0 (lead :: (i2osp32 (BitVec.ofNat 256 gx) ++ i2osp32 (BitVec.ofNat 256 y))), encLen := 65 }

/-! ## One step of each command (95_test_vectors.md, 2.2 to 2.6) -/

theorem test_fadd_wraps : (after (execFadd 0 1 2 (regs (p - 1) 1))).reg 0 = 0 := by decide +kernel

theorem test_fadd_range : (after (execFadd 0 1 2 (regs p 0))).errWord = 7 := by decide +kernel

theorem test_fsub_negative : (after (execFsub 0 1 2 (regs 0 1))).reg 0
    = 0xFFFFFFFF00000001000000000000000000000000FFFFFFFFFFFFFFFFFFFFFFFE := by decide +kernel

theorem test_fmul : (after (execFmul 0 1 2 (regs gx gy))).reg 0
    = 0x823CD15F6DD3C71933565064513A6B2BD183E554C6A08622F713EBBBFACE98BE := by decide +kernel

theorem test_finv : (after (execFinv 0 1 (regs 3 0))).reg 0
    = 0xAAAAAAAA00000000AAAAAAAAAAAAAAAAAAAAAAAB555555555555555555555555 := by decide +kernel

theorem test_finv_zero : (after (execFinv 0 1 (regs 0 0))).errWord = 8 := by decide +kernel

theorem test_fsqrt : (after (execFsqrt 0 1 (regs 2 0))).reg 0
    = 0xAF8BBDFE8CDD5577ACBF345B543D28CF402F4E94D3865B97EA0787F2D3AA5D22 := by decide +kernel

theorem test_fsqrt_none : (after (execFsqrt 0 1 (regs 3 0))).errWord = 9 := by decide +kernel

theorem test_pinf : (after (execPinf 0 (points twoG twoG))).point 0 = .inf := by decide +kernel

theorem test_pbase : (after (execPbase 2 State.reset)).point 2 = .aff (BitVec.ofNat 256 gx) (BitVec.ofNat 256 gy) := by
  decide +kernel

theorem test_pset : (after (execPset 1 1 2 (regs gx gy))).point 1 = .aff (BitVec.ofNat 256 gx) (BitVec.ofNat 256 gy) := by
  decide +kernel

theorem test_pset_off_curve : (after (execPset 1 1 2 (regs gx (gy + 1)))).errWord = 2 := by decide +kernel

theorem test_oncurve_swapped : (after (execOncurve 1 1 2 (regs gx gy))).reg 1 = 1 ∧
    (after (execOncurve 1 1 2 (regs gy gx))).reg 1 = 0 := by decide +kernel

theorem test_pneg : (after (execPneg 1 0 (points G .inf))).point 1 = minusG := by decide +kernel

theorem test_padd_chord : (after (execPadd 2 1 0 (points G twoG))).point 2 = threeG := by decide +kernel

theorem test_padd_inverse_pair : (after (execPadd 2 1 0 (points G minusG))).point 2 = .inf := by decide +kernel

theorem test_pdbl_in_place : (after (execPdbl 0 0 (points G .inf))).point 0 = twoG := by decide +kernel

theorem test_smul_five : (after (execSmul 1 1 0 ((regs 5 0).setPoint 0 G))).point 1 = fiveG := by decide +kernel

theorem test_smul_above_order : (after (execSmul 1 1 0 ((regs (n + 2) 0).setPoint 0 G))).point 1 = twoG := by
  decide +kernel

theorem test_keygen_two : after (endCommand State.reset (keygenResult Config.curve 2 7 3 State.reset))
    = (State.reset.setReg 7 2).setPoint 3 twoG := by decide +kernel

theorem test_ecdh_scenario_b : (after (execEcdh 1 1 ((regs 1 0).setPoint 1 twoG))).ikmLen = 32 ∧
    (after (execEcdh 1 1 ((regs 1 0).setPoint 1 twoG))).ikm.read 0 = 0x7C ∧
    (after (execEcdh 1 1 ((regs 1 0).setPoint 1 twoG))).ikm.read 31 = 0x78 := by decide +kernel

theorem test_ecdh_degenerate : (after (execEcdh 1 1 ((regs n 0).setPoint 1 twoG))).errWord = 4 := by decide +kernel

theorem test_encode_compressed : (after (execEncode 0 true (points G .inf))).encLen = 33 ∧
    (after (execEncode 0 true (points G .inf))).enc.read 0 = 0x03 ∧
    (after (execEncode 0 true (points G .inf))).enc.read 32 = 0x96 := by decide +kernel

theorem test_encode_infinity : (after (execEncode 0 false State.reset)).errWord = 3 := by decide +kernel

theorem test_decode_even : (after (execDecode 1 (encoded 2))).point 1 = minusG := by decide +kernel

theorem test_decode_prefix_five : (after (execDecode 1 (encoded 5))).errWord = 1 := by decide +kernel

/-- A primitive for the test: 32 bytes that hold the two lengths' sum. By hand: `prk` is 32 bytes of 32, `t[1]` of
`32 + 0 + 1`, `t[2]` of `32 + 32 + 0 + 1`; 34 bytes asked for. -/
def toyHmac : Hmac := fun key message => Vector.replicate 32 (BitVec.ofNat 8 (key.length + message.length))

theorem test_hkdf_blocks :
    memRead (after (endCommand State.reset (hkdfResult toyHmac Config.capacities { State.reset with okmReq := 34 }))).okm 0 35
      = List.replicate 32 33 ++ [65, 65, 0] := by decide +kernel

theorem test_hkdf_checks : (after (execHkdf { State.reset with okmReq := 8161 })).errWord = 5 ∧
    (after (execHkdf { State.reset with okmReq := 8161, saltLen := 257 })).errWord = 10 := by decide +kernel

/-! ## The host -/

/-- A word written to `CMD` runs with the next step (R73): `PBASE pt0`. -/
theorem test_written_command_runs :
    (after (step (after (step (idle [⟨.writeReg 0x01 0x11, false⟩]))))).point 0 = G := by decide +kernel

/-- `PT_INF[3]` reads 1 after reset (R42), `CONST_P` reads `p` (R38). -/
theorem test_host_reads : hostReadReg Config.curve State.reset 0x4C = 1 ∧ hostReadReg Config.curve State.reset 0x10
    = 0xFFFFFFFF00000001000000000000000000000000FFFFFFFFFFFFFFFFFFFFFFFF := by decide +kernel

/-- A word placed by `withFetchWord` runs at once, also when the host has an access to make. -/
theorem test_fetch_word : (after (step ((idle [⟨.reset, true⟩]).withFetchWord 32 0x00000310))).point 3 = .inf ∧
    step (State.reset.withFetchWord 32 0) = .next (State.reset.raise .illegalCommand) := ⟨by decide +kernel, rfl⟩

/-! ## Witnesses: for every statement with hypotheses, a state and operands that meet them -/

theorem wf_G : WellFormed G := .inr ⟨_, _, rfl, by decide +kernel, by decide +kernel, by decide +kernel⟩

theorem wf_twoG : WellFormed twoG := .inr ⟨_, _, rfl, by decide +kernel, by decide +kernel, by decide +kernel⟩

theorem wf_minusG : WellFormed minusG := .inr ⟨_, _, rfl, by decide +kernel, by decide +kernel, by decide +kernel⟩

theorem wf_inf : WellFormed .inf := .inl rfl

/-- `HostResetRestoresEveryPiece`: idle, and while a command runs; then a write of `CMD`. -/
theorem witness_host_reset :
    (idle [⟨.reset, false⟩, ⟨.writeReg 0x01 ((0x50 : Word32).zeroExtend 256), false⟩]).running = none ∧
    (busy 0x20 [⟨.reset, true⟩, ⟨.writeReg 0x01 ((0x50 : Word32).zeroExtend 256), false⟩]).hostIn
      = ⟨.reset, true⟩ :: [⟨.writeReg 0x01 ((0x50 : Word32).zeroExtend 256), false⟩] := ⟨rfl, rfl⟩

/-- `DecoderFollowsMatchAndMask`: a row and a word that it matches. -/
theorem witness_decoder_row : ("ENCODE", (0x00000040 : Word32), (0xFFEFCFFF : Word32)) ∈ opcodeTable ∧
    (0x00103040 : Word32) &&& 0xFFEFCFFF = 0x00000040 := ⟨by simp [opcodeTable], by decide⟩

/-- `EncodeOfDecodeIsTheWord`: the largest operands. -/
theorem witness_encode_of_decode : decodeWord 0x00077713 = .ok (.oncurve 7 7 7) := by decide +kernel

/-- `StepRunsTheDecodedCommand`: a command that runs, with no access and with one that waits; a placed word. -/
theorem witness_step : (busy 0x11 []).running = some 0x11 ∧ Undisturbed (busy 0x11 []) ∧
    Undisturbed (busy 0x11 [⟨.reset, false⟩]) ∧ decodeWord 0x11 = .ok (.pbase 0) ∧
    decodeTableWord 32 0x11 = some (.pbase 0) :=
  ⟨rfl, fun _ _ h => by simp [busy] at h, fun _ _ h => by simp [busy] at h; simp [← h.1], by decide +kernel,
    by decide +kernel⟩

/-- `CmdWriteIssuesTheCommand`: idle, fatal, busy; and a read. -/
theorem witness_cmd_write : (idle [⟨.writeReg 0x01 ((0xFFFFFFFF : Word32).zeroExtend 256), true⟩]).fatal = false ∧
    ({ idle [⟨.writeReg 0x01 ((0x50 : Word32).zeroExtend 256), true⟩] with fatal := true }).running = none ∧
    (busy 0x11 [⟨.writeReg 0x01 ((0x50 : Word32).zeroExtend 256), true⟩]).running ≠ none ∧
    (idle [⟨.readReg 0x01, false⟩]).hostIn = [⟨.readReg 0x01, false⟩] := ⟨rfl, rfl, by simp [busy], rfl⟩

/-- `WordOfNoRowRaisesIllegalCommand`: a word other than 0 that no row matches. -/
theorem witness_illegal_word : (busy 0x80000003 []).running = some 0x80000003 ∧ Undisturbed (busy 0x80000003 []) ∧
    ∀ row ∈ opcodeTable, (0x80000003 : Word32) &&& row.2.2 ≠ row.2.1 :=
  ⟨rfl, fun _ _ h => by simp [busy] at h, by simp [opcodeTable]⟩

/-- `AccessWhileBusyIsHarmless`: one access of each kind, the selects at both sides of `STATUS`. -/
theorem witness_busy_access : ∀ op : HostOp, (busy 0x20 [⟨op, true⟩]).running = some 0x20 ∧
    (busy 0x20 [⟨op, true⟩]).hostIn = ⟨op, true⟩ :: [] ∧ ((0x01 : BitVec 8) ≠ 0x00 ∧ (0x01 : BitVec 8) ≠ 0x02) ∧
    ((0x03 : BitVec 8) ≠ 0x00 ∧ (0x03 : BitVec 8) ≠ 0x02) := fun _ => ⟨rfl, rfl, by decide, by decide⟩

/-- Capacities at the bounds of R6, two buffers with no byte at all. -/
def leastCapacities : Capacities where
  enc := 65
  ikm := 32
  salt := 0
  info := 0
  enc_ge := by decide
  ikm_ge := by decide

/-- Another curve, small enough for hand calculation: `y² = x³ + x + 1` over the integers mod 7, with five points. -/
def smallCurve : Curve := { p := 7, a := 1, b := 1, gx := 0, gy := 1, n := 5 }

/-- Parameters other than the defaults, in both halves. -/
def smallParameters : Parameters where
  curve := smallCurve
  capacities := leastCapacities
  admissible :=
    { p_prime := by norm_num [smallCurve], p_mod_four := by decide, n_prime := by norm_num [smallCurve],
      gx_lt := by decide, gy_lt := by decide, base_mem := by decide, fits := by decide }

/-- The curve is taken where it stands (R43). By hand: `3·5 = 15 = 1`, 7 is no field element, `2·(0, 1) = (2, 5)` with slope
`1/2 = 4`, and `5·(0, 1) = ∞`. -/
theorem test_other_curve : (after (commandMeaning smallParameters (.fmul 0 1 2) (regs 3 5))).reg 0 = 1 ∧
    (after (commandMeaning smallParameters (.fadd 0 1 2) (regs 7 0))).errWord = 7 ∧
    (after (commandMeaning smallParameters (.pdbl 1 0) (points (.aff 0 1) .inf))).point 1 = .aff 2 5 ∧
    (after (commandMeaning smallParameters (.smul 1 1 0) ((regs 5 0).setPoint 0 (.aff 0 1)))).point 1 = .inf := by
  decide +kernel

/-- A step takes the curve too: a written `PBASE pt0` loads `(0, 1)`, and `CONST_N` reads 5. -/
theorem test_step_other_curve : (after (advance smallParameters (busy 0x11 []))).point 0 = .aff 0 1 ∧
    (after (advance smallParameters (idle [⟨.readReg 0x15, false⟩]))).hostOut = [.reg 5] := by decide +kernel

/-- A capacity is enforced where it stands: `HKDF` takes an `IKM_LEN` of 33 at the default and refuses it at the least. -/
theorem test_hkdf_other_capacity : (after (hkdfCommand leastCapacities { State.reset with ikmLen := 33 })).errWord = 10 ∧
    (after (hkdfCommand Config.capacities { State.reset with ikmLen := 33 })).errWord = 0 ∧
    (after (hkdfCommand leastCapacities { State.reset with ikmLen := 32 })).errWord = 0 := by decide +kernel

/-- `DisallowedAccessDoesNothing`: reserved numbers at the ends of their ranges, read-only ones at the ends of theirs,
offsets at the capacity, also at a capacity of 0. -/
theorem witness_disallowed : (∀ op : HostOp, (idle [⟨op, false⟩]).running = none) ∧
    [(0x0A : BitVec 8), 0x0F, 0x16, 0x1F, 0x28, 0x3F, 0x43, 0x4F, 0x50, 0x7F, 0x85, 0xFF].all (fun s => Reserved s) ∧
    [(0x00 : BitVec 8), 0x02, 0x03, 0x09, 0x10, 0x15, 0x40, 0x42, 0x4C, 0x4E].all (fun s => ReadOnly s) ∧
    [(0x01 : BitVec 8), 0x08, 0x20, 0x27, 0x80, 0x84].all (fun s => ¬Reserved s ∧ ¬ReadOnly s) ∧
    capacity Config.capacities 0x80 = some 128 ∧ capacity Config.capacities 0x84 = some 8160 ∧
    capacity leastCapacities 0x82 = some 0 := ⟨fun _ => rfl, by decide, by decide, by decide, by decide, by decide, by decide⟩

/-- `WindowsShowTheRegisterFiles`: the first and the last window of each file; an infinite and an affine point. -/
theorem witness_windows :
    (idle [⟨.readReg 0x27, false⟩]).hostIn = ⟨.readReg (BitVec.ofNat 8 (0x20 + (7 : RIdx))), false⟩ :: [] ∧
    (idle [⟨.writeReg 0x20 5, false⟩]).hostIn = ⟨.writeReg (BitVec.ofNat 8 (0x20 + (0 : RIdx))) 5, false⟩ :: [] ∧
    (idle [⟨.readReg 0x4C, false⟩]).hostIn = ⟨.readReg (BitVec.ofNat 8 (0x40 + 4 * (3 : PIdx))), false⟩ :: [] ∧
    (idle [⟨.writeReg 0x42 5, false⟩]).hostIn = ⟨.writeReg (BitVec.ofNat 8 (0x40 + 2 + 4 * (0 : PIdx))) 5, false⟩ :: [] ∧
    State.reset.pt[(3 : PIdx)] = .inf ∧ (points twoG .inf).pt[(0 : PIdx)] = twoG ∧ (points twoG .inf).running = none := by
  decide +kernel

/-- `LengthRegistersHoldHostWrites`: the first and the last register; the largest value that fits, the least that does not. -/
theorem witness_length_writes : (idle [⟨.writeReg 0x04 0xFFFFFFFF, false⟩]).running = none ∧
    (4 ≤ (0x04 : BitVec 8).toNat ∧ (0x08 : BitVec 8).toNat ≤ 8) ∧ (0xFFFFFFFF : Word256).toNat < 2 ^ 32 ∧
    2 ^ 32 ≤ (0x100000000 : Word256).toNat := by decide

/-- `HostByteWriteChangesOneByte`: the last byte of `ENC` (127 < 128, and 64 < 65), from the state after reset. -/
theorem witness_byte_write : (idle [⟨.writeBuf 0x80 127 0xFF, false⟩]).running = none ∧
    (∀ b, ((idle [⟨.writeBuf 0x80 127 0xFF, false⟩]).buf b).wf) ∧ capacity Config.capacities 0x80 = some 128 ∧
    capacity leastCapacities 0x80 = some 65 ∧ (0x80 : BitVec 8) ≠ 0x84 := ⟨rfl, fun b => by cases b <;> decide, by decide, by decide, by decide⟩

/-- `OnlyCmdWritesHaveSideEffects`: an idle CORE with any access, among them a write next to `CMD`; the values that reads
answer, from R28, R30, R31 and R38. -/
theorem witness_idle_access : (∀ op : HostOp, (idle [⟨op, false⟩]).running = none ∧
    (idle [⟨op, false⟩]).hostIn = ⟨op, false⟩ :: []) ∧ (0x00 : BitVec 8) ≠ 0x01 ∧
    registerValue Config.curve State.reset 0x00 = 0x50323536 ∧
    registerValue Config.curve { State.reset with error := true, err := some .bufferLength } 0x02 = 2 ∧
    registerValue Config.curve { State.reset with error := true, err := some .bufferLength } 0x03 = 10 ∧
    registerValue Config.curve (regs 7 8) 0x22 = 8 ∧ registerValue Config.curve (points twoG .inf) 0x44 = 1 ∧
    bufferByte Config.capacities (encoded 3) 0x80 0 = 3 :=
  ⟨fun _ => ⟨rfl, rfl⟩, by decide, by decide +kernel, by decide +kernel, by decide +kernel, by decide +kernel,
    by decide +kernel, by decide +kernel⟩

/-- `FatalStopsCommandsUntilReset`: an idle state with the bit set, any access. -/
theorem witness_fatal : ∀ op : HostOp, ({ idle [⟨op, false⟩] with fatal := true }).running = none ∧
    ({ idle [⟨op, false⟩] with fatal := true }).fatal = true := fun _ => ⟨rfl, rfl⟩

/-- `FaddAddsModP`, `FsubSubtractsModP`, `FmulMultipliesModP`, `OncurveAnswersTheEquation`, and the range clause of
`PsetWritesOnlyCurvePoints`: both operands at the top of the range; either one just above. -/
theorem witness_field_operands : ((regs (p - 1) (p - 1)).r[(1 : RIdx)].toNat < p ∧
    (regs (p - 1) (p - 1)).r[(2 : RIdx)].toNat < p) ∧ p ≤ (regs p 0).r[(1 : RIdx)].toNat ∧
    p ≤ (regs 0 p).r[(2 : RIdx)].toNat := by decide +kernel

/-- `FinvWritesTheInverse`: `p − 1`, 0, and `p`. -/
theorem witness_finv : ((regs (p - 1) 0).r[(1 : RIdx)].toNat < p ∧ (regs (p - 1) 0).r[(1 : RIdx)].toNat ≠ 0) ∧
    (regs 0 0).r[(1 : RIdx)].toNat = 0 ∧ p ≤ (regs p 0).r[(1 : RIdx)].toNat := by decide +kernel

/-- `FsqrtWritesASquareRoot`: 4 and 0 are squares, 3 is not (95_test_vectors.md, 2.2). -/
theorem witness_fsqrt : ((regs 4 0).r[(1 : RIdx)].toNat < p ∧ ∃ u, u * u % p = (regs 4 0).r[(1 : RIdx)].toNat) ∧
    (∃ u, u * u % p = (regs 0 0).r[(1 : RIdx)].toNat) ∧
    ((regs 3 0).r[(1 : RIdx)].toNat < p ∧ ¬∃ u, u * u % p = (regs 3 0).r[(1 : RIdx)].toNat) := by
  refine ⟨⟨by decide +kernel, 2, by decide +kernel⟩, ⟨0, by decide +kernel⟩, by decide +kernel, ?_⟩
  have h3 : (regs 3 0).r[(1 : RIdx)].toNat = 3 := by decide +kernel
  have hm : modexp 3 ((p - 1) / 2) p ≠ 1 := by decide +kernel
  have hlt : 3 < p := by decide +kernel
  have hpow : 2 * ((p - 1) / 2) = p - 1 := by decide +kernel
  rintro ⟨u, hu⟩
  have inst := curve_p_prime
  rw [h3] at hu
  have h1 : ((u : ZMod p)) ^ 2 = 3 := by
    have h2 := congrArg (Nat.cast : Nat → ZMod p) hu
    rw [ZMod.natCast_mod] at h2
    push_cast at h2
    rw [pow_two, h2]
  have hne : (u : ZMod p) ≠ 0 := by
    intro h0
    rw [h0, zero_pow two_ne_zero] at h1
    have h4 := (cast_eq_zero_of_lt (c := Config.curve) (x := 3) hlt).1 (by push_cast; exact h1.symm)
    omega
  have h5 : ((3 : Nat) : ZMod p) ^ ((p - 1) / 2) = 1 := by
    push_cast
    rw [← h1, ← pow_mul, hpow]
    exact ZMod.pow_card_sub_one_eq_one hne
  apply hm
  rw [modexp_eq]
  have h6 := (ZMod.natCast_eq_natCast_iff' (3 ^ ((p - 1) / 2)) 1 p).1 (by push_cast at h5 ⊢; exact h5)
  exact h6

/-- `FieldResultsAreCanonical`: a command of the list that ends without an error. -/
theorem witness_field_result : ∃ t, exec (.fadd 0 1 2) (regs (p - 1) (p - 1)) = .next t ∧ t.error = false :=
  ⟨_, rfl, by decide +kernel⟩

/-- `PsetWritesOnlyCurvePoints`: `G`, and `(0, 0)`, which is not on the curve. -/
theorem witness_pset : ((regs gx gy).r[(1 : RIdx)].toNat < p ∧ (regs gx gy).r[(2 : RIdx)].toNat < p ∧
    OnCurve (regs gx gy).r[(1 : RIdx)].toNat (regs gx gy).r[(2 : RIdx)].toNat) ∧
    ¬OnCurve (regs 0 0).r[(1 : RIdx)].toNat (regs 0 0).r[(2 : RIdx)].toNat := by decide +kernel

/-- `PnegNegatesThePoint`: infinity, and `G`. -/
theorem witness_pneg : State.reset.pt[(0 : PIdx)] = .inf ∧ (points G .inf).pt[(0 : PIdx)] = G ∧ WellFormed G :=
  ⟨by decide, by decide +kernel, wf_G⟩

/-- `PaddWritesTheSum`, `PdblWritesTheDouble`, `SmulWritesTheMultiple`: equal points, a point and its negative, a point and
infinity. -/
theorem witness_points : WellFormed (points G G).pt[(0 : PIdx)] ∧ WellFormed (points G minusG).pt[(1 : PIdx)] ∧
    WellFormed (points G .inf).pt[(1 : PIdx)] := by
  refine ⟨?_, ?_, ?_⟩
  · rw [show (points G G).pt[(0 : PIdx)] = G from by decide +kernel]; exact wf_G
  · rw [show (points G minusG).pt[(1 : PIdx)] = minusG from by decide +kernel]; exact wf_minusG
  · rw [show (points G .inf).pt[(1 : PIdx)] = .inf from by decide +kernel]; exact wf_inf

/-- `PointAdditionIsAGroup` (each law of `GroupLaws` too), `NoPointHasZeroOrdinate`, `ScalarMultiplicationLaws`: three well-formed points. -/
theorem witness_group : WellFormed G ∧ WellFormed minusG ∧ WellFormed .inf ∧ G.wf Config.curve = true ∧
    minusG.wf Config.curve = true ∧ Point.wf Config.curve .inf = true :=
  ⟨wf_G, wf_minusG, wf_inf, by decide +kernel, by decide +kernel, by decide +kernel⟩

/-- `KeygenWritesAKeyPair`: the least and the greatest draw. -/
theorem witness_keygen : (1 ≤ 1 ∧ 1 < n) ∧ (1 ≤ n - 1 ∧ n - 1 < n) := by decide +kernel

/-- `EcdhDeliversTheSharedSecret`: each clause: infinity, off the curve, a multiple of `n`, and a scalar that is none. -/
theorem witness_ecdh : State.reset.pt[(0 : PIdx)] = .inf ∧ ¬OnCurve (0 : Word256).toNat (0 : Word256).toNat ∧
    (points G .inf).pt[(0 : PIdx)] ≠ .inf ∧ WellFormed G ∧ (regs n 0).r[(1 : RIdx)].toNat % n = 0 ∧
    (regs (n + 1) 0).r[(1 : RIdx)].toNat % n ≠ 0 ∧ State.reset.ikm.wf :=
  ⟨by decide, by decide +kernel, by decide +kernel, wf_G, by decide +kernel, by decide +kernel, by decide⟩

theorem ecdh_symmetric_hypotheses (A B : Point) :
    1 < n ∧ n - 1 < n ∧ ((regs 1 0).setPoint 0 B).r[(1 : RIdx)].toNat = 1 ∧
    ((regs 1 0).setPoint 0 B).pt[(0 : PIdx)] = B ∧ ((regs (n - 1) 0).setPoint 0 A).r[(1 : RIdx)].toNat = n - 1 ∧
    ((regs (n - 1) 0).setPoint 0 A).pt[(0 : PIdx)] = A ∧ Memory.wf ((regs 1 0).setPoint 0 B).ikm :=
  ⟨by decide +kernel, by decide +kernel, by rw [State.setPoint_r]; decide +kernel, State.point_setPoint_self _ _ _,
    by rw [State.setPoint_r]; decide +kernel, State.point_setPoint_self _ _ _, by simp [regs, State.reset, Memory.wf]⟩

/-- `EcdhIsSymmetric`: `a = 1` and `b = n − 1`, on two COREs, each with the other's public point. -/
theorem witness_ecdh_symmetric : ∃ A B : Point, A = scalarMult Config.curve 1 G ∧
    B = scalarMult Config.curve (n - 1) G ∧ ((regs 1 0).setPoint 0 B).r[(1 : RIdx)].toNat = 1 ∧
    ((regs 1 0).setPoint 0 B).pt[(0 : PIdx)] = B ∧ ((regs (n - 1) 0).setPoint 0 A).r[(1 : RIdx)].toNat = n - 1 ∧
    ((regs (n - 1) 0).setPoint 0 A).pt[(0 : PIdx)] = A ∧ Memory.wf ((regs 1 0).setPoint 0 B).ikm :=
  ⟨scalarMult Config.curve 1 G, scalarMult Config.curve (n - 1) G, rfl, rfl, (ecdh_symmetric_hypotheses _ _).2.2⟩

/-- `EncodeWritesTheSec1Form`, `DecodeOfEncodeGivesThePoint`: infinity, and `G`, with `ENC` as after reset. -/
theorem witness_encode : State.reset.pt[(0 : PIdx)] = .inf ∧ (points G .inf).pt[(0 : PIdx)] = G ∧ G ≠ .inf ∧
    WellFormed G ∧ (points G .inf).enc.wf :=
  ⟨by decide, by decide +kernel, by decide, wf_G, by decide⟩

/-- `DecodeReadsTheSec1Form`: lengths just beside 33 and 65; each form accepted, and refused for its prefix. -/
theorem witness_decode :
    (({ State.reset with encLen := 34 }).encLen.toNat ≠ 33 ∧ ({ State.reset with encLen := 34 }).encLen.toNat ≠ 65) ∧
    ((encodedLong 4 gy).encLen.toNat = 65 ∧ Memory.read (encodedLong 4 gy).enc 0 = 0x04 ∧
      integerAt (encodedLong 4 gy).enc 1 < p ∧ integerAt (encodedLong 4 gy).enc 33 < p ∧
      OnCurve (integerAt (encodedLong 4 gy).enc 1) (integerAt (encodedLong 4 gy).enc 33)) ∧
    (¬(Memory.read (encodedLong 2 gy).enc 0 = 0x04)) ∧
    ((encoded 3).encLen.toNat = 33 ∧ Memory.read (encoded 3).enc 0 = 0x03 ∧ gy % 2 = 1 ∧
      integerAt (encoded 3).enc 1 < p ∧ gy < p ∧ OnCurve (integerAt (encoded 3).enc 1) gy) ∧
    ((encoded 2).encLen.toNat = 33 ∧ Memory.read (encoded 2).enc 0 = 0x02 ∧ (p - gy) % 2 = 0 ∧
      p - gy < p ∧ OnCurve (integerAt (encoded 2).enc 1) (p - gy)) ∧
    ((encoded 5).encLen.toNat = 33 ∧ Memory.read (encoded 5).enc 0 ≠ 0x02 ∧ Memory.read (encoded 5).enc 0 ≠ 0x03) := by
  decide +kernel

/-- `HkdfDerivesTheOutput`, `HkdfOutputsArePrefixes`: the lengths at and just above their limits. -/
theorem witness_hkdf : ¬HkdfInputsFit Config.capacities { State.reset with saltLen := 257 } ∧
    HkdfInputsFit Config.capacities { State.reset with ikmLen := 256, saltLen := 256, infoLen := 256, okmReq := 8161 } ∧
    8160 < (8161 : Word32).toNat ∧ HkdfInputsFit leastCapacities { State.reset with ikmLen := 32, okmReq := 8160 } ∧
    (8160 : Word32).toNat ≤ 8160 ∧ State.reset.okm.wf ∧ (16 : Word32).toNat ≤ (32 : Word32).toNat := by decide

/-- `ErrorsArePrecise`: a command that ends with an error. -/
theorem witness_error : ∃ t, exec (.finv 0 1) State.reset = .next t ∧ t.error = true := ⟨_, rfl, by decide +kernel⟩

/-- `CommandsRaiseOnlyTheirErrors`, `OnlyTheDestinationRegistersChange`, `CommandsStoreOnlyToTheirBuffer`: a command that
stores, from a state with canonical buffers. -/
theorem witness_stores : (∀ b, (State.reset.buf b).wf) ∧ (∃ t, exec (.encode 0 false) (points G .inf) = .next t ∧
    t.err = none) ∧ storesTo (.encode 0 false) (points G .inf) = some (.enc, 65) :=
  ⟨fun b => by cases b <;> simp [State.buf, State.reset, Memory.wf], ⟨_, rfl, by decide +kernel⟩, rfl⟩

/-- `EveryStepAnswersANextState`: a command runs, undisturbed. -/
theorem witness_progress : (busy 0x310 []).running ≠ none ∧ Undisturbed (busy 0x310 []) :=
  ⟨by simp [busy], fun _ _ h => by simp [busy] at h⟩

/-- `PointRegistersStayWellFormed`, `BuffersStayWithinCapacity`, `ErrorBitAndCodeAgree`, `FatalIsNeverSet`: the state after
reset with `SMUL` running has them all, and takes a step. -/
theorem witness_invariants : (∀ i : PIdx, WellFormed (busy 0x120 []).pt[i]) ∧ (busy 0x120 []).BuffersCanonical Config.capacities ∧
    (busy 0x120 []).BuffersCanonical leastCapacities ∧
    (busy 0x120 []).OkmLenInRange ∧ ((busy 0x120 []).errWord ≠ 0 ↔ (busy 0x120 []).error = true) ∧
    (busy 0x120 []).fatal = false ∧ ∃ t, step (busy 0x120 []) = .next t :=
  ⟨fun i => .inl (by revert i; decide), fun b => by cases b <;> simp [Buf.Holds, State.buf, busy, State.reset, Memory.wf],
    fun b => by cases b <;> simp [Buf.Holds, State.buf, busy, State.reset, Memory.wf],
    by decide, by decide, rfl, _, rfl⟩

/-- `CapacitiesAreParametersWithDefaults`, `CurveIsAParameterWithDefault`: bounds met exactly, two parameters that share the
curve or the capacities and differ in the other, and a command that is not `HKDF`. -/
theorem witness_parameters : 65 ≤ leastCapacities.enc ∧ 32 ≤ leastCapacities.ikm ∧
    ({ Config.parameters with capacities := leastCapacities } : Parameters) ≠ Config.parameters ∧
    smallParameters.capacities = leastCapacities ∧ smallParameters.curve ≠ Config.curve ∧
    Instr.pinf 0 ≠ .hkdf ∧ (busy 0x50 []).running = some 0x50 ∧ decodeWord 0x50 = .ok .hkdf := by decide +kernel

/-- The model's test of a well-formed Point is the spec's. -/
theorem wellFormedOf_iff {c : Curve} (hp : 0 < c.p) (P : Point) : WellFormedOf c P ↔ P.wf c = true := by
  cases P with
  | inf => simp [WellFormedOf, Point.wf]
  | aff x y =>
    have key : OnCurveOf c x.toNat y.toNat ↔ onCurveXY c x.toNat y.toNat = true := by
      rw [onCurveXY, beq_iff_eq, residue_eq_zero_iff hp, OnCurveOf, eq_comm]
      rw [← Nat.ModEq, Nat.modEq_iff_dvd]
      push_cast
      rw [show (y.toNat : Int) * y.toNat - x.toNat * x.toNat * x.toNat - c.a * x.toNat - c.b
        = y.toNat * y.toNat - (x.toNat * x.toNat * x.toNat + c.a * x.toNat + c.b) by ring]
    simp [WellFormedOf, wf_aff_iff, key]

/-- The multiple, in the group. -/
theorem multipleOf_group {c : Curve} [Fact c.p.Prime] (hc : CurveSound c) {P : Point} (hP : P.wf c = true) :
    ∀ j, (multipleOf c j P).wf c = true ∧ groupPoint c (multipleOf c j P) = j • groupPoint c P
  | 0 => by simp [multipleOf, Point.wf]
  | j + 1 => by
    obtain ⟨hw, hg⟩ := multipleOf_group hc hP j
    have h := groupPoint_add hc hw hP
    exact ⟨h.1, by rw [multipleOf, h.2, hg, succ_nsmul]⟩

/-- `ScalarCommandsOnEveryCurve`, `PointCommandsOnEveryCurve`, `PointRegistersStayWellFormed`, `FatalIsNeverSet`: the default
has prime order (R7), and so no singular point. -/
theorem witness_prime_order : PrimeOrder Config.parameters.curve := by
  have inst := curve_p_prime
  show PrimeOrder Config.curve
  refine ⟨by decide +kernel, fun P hP => ?_⟩
  have hw := (wellFormedOf_iff curve_p_pos P).1 hP
  obtain ⟨w, g⟩ := multipleOf_group curve_sound hw Config.curve.n
  exact groupPoint_injective curve_sound w rfl (by rw [g, order_smul inst]; rfl)

/-- `FieldCommandsOnEveryCurve`, `PointCommandsOnEveryCurve`, `CodecOnEveryCurve`: on the small curve, the operands at the
ends of the range, a square and a value that is none, points on the curve and off it. -/
theorem witness_every_curve : (6 < smallParameters.curve.p ∧ smallParameters.curve.p ≤ 7) ∧ 3 * 3 % 7 = 2 ∧
    (∀ u < 7, u * u % 7 ≠ 3) ∧ NonSingular smallParameters.curve ∧ OnCurveOf smallParameters.curve 2 5 ∧
    ¬OnCurveOf smallParameters.curve 2 4 ∧
    (points (.aff 0 1) .inf).pt[(0 : PIdx)] = .aff 0 1 ∧ State.reset.pt[(0 : PIdx)] = .inf ∧
    (1 < smallParameters.curve.n ∧ 4 < smallParameters.curve.n) := by
  refine ⟨by decide, by decide, by decide, by decide, by decide, by decide, by decide +kernel, by decide, by decide⟩

theorem witness_small_point : WellFormedOf smallParameters.curve (.aff 0 1) ∧ WellFormedOf smallParameters.curve (.aff 2 5) :=
  ⟨.inr ⟨0, 1, rfl, by decide, by decide, by decide⟩, .inr ⟨2, 5, rfl, by decide, by decide, by decide⟩⟩

/-- `HostCannotWritePoints`: an access other than reset, idle and busy. -/
theorem witness_host_points : (idle [⟨.writeReg 0x41 7, false⟩]).running = none ∧
    (HostOp.writeReg 0x41 7) ≠ .reset ∧ (busy 0x11 [⟨.writeReg 0x41 7, true⟩]).hostIn
      = ⟨.writeReg 0x41 7, true⟩ :: [] := by decide

end Sys2Proof.Tests
end

section
/-! SUPPORT. Everything a host access can do to the state, said once, for all parameters (`HostEffect`), and with it
everything a step can do (`advance_effect`): an invariant of the step is one lemma over `HostEffect` and one over `Ending`. -/

namespace Sys2Proof.Machine

/-! The host's writes -/

/-- `t` is `s` but for what the host may write through a register's select number: `r`, the command that runs, and the
five writable length registers (R29, R32 to R36, R39). -/
abbrev State.SameButHostRegs (s t : State) : Prop :=
  t = { s with r := t.r, running := t.running, encLen := t.encLen, ikmLen := t.ikmLen, saltLen := t.saltLen,
               infoLen := t.infoLen, okmReq := t.okmReq }

theorem State.issue_frame (s : State) (w : Word32) : s.SameButHostRegs (s.issue w) := by
  unfold State.issue
  split <;> rfl

theorem State.write32_frame {s : State} {f : Word32 → State} (hf : ∀ w, s.SameButHostRegs (f w)) (v : Word256) :
    s.SameButHostRegs (s.write32 v f) := by
  unfold State.write32
  split
  · exact hf _
  · rfl

theorem State.writeHostReg_frame (s : State) (v : Word256) (g : HostReg) :
    s.SameButHostRegs (s.writeHostReg v g) := by
  cases g with
  | cmd => exact State.write32_frame s.issue_frame v
  | encLen | ikmLen | saltLen | infoLen | okmReq =>
    rw [State.writeHostReg]
    exact State.write32_frame (fun _ => rfl) v
  | id | status | err | okmLen | constP | constA | constB | constGx | constGy | constN | r | ptInf | ptX | ptY => rfl

theorem hostWriteReg_frame (s : State) (sel : BitVec 8) (v : Word256) :
    s.SameButHostRegs (hostWriteReg s sel v) := by
  unfold hostWriteReg
  split
  · exact s.writeHostReg_frame v _
  · rfl

/-- A byte write is ignored, or it writes a byte below the capacity of a buffer the host may write. -/
theorem hostWriteBuf_cases (k : Capacities) (s : State) (sel : BitVec 8) (off : Nat) (v : Byte) :
    hostWriteBuf k s sel off v = s ∨
      ∃ b, off < b.cap k ∧ hostWriteBuf k s sel off v = s.setBuf b ((s.buf b).write off v) := by
  unfold hostWriteBuf
  split
  next b _ =>
    split_ifs with h
    · exact .inr ⟨b, by simp_all, rfl⟩
    · exact .inl rfl
  · exact .inl rfl

/-! A host access, and a step -/

/-- How a host access can leave the state `s` (R53, R58, R60, R230). -/
inductive HostEffect (k : Parameters) (s : State) : State → Prop where
  | ignored : HostEffect k s s
  | answered (a : HostAnswer) : HostEffect k s (s.answer a)
  | wroteReg (t : State) (hf : s.SameButHostRegs t) : HostEffect k s t
  | wroteByte (b : Buf) (off : Nat) (v : Byte) (hoff : off < b.cap k.capacities) :
      HostEffect k s (s.setBuf b ((s.buf b).write off v))
  | reset : HostEffect k s (hostReset s)

theorem hostWhenIdle_effect (k : Parameters) (s : State) (op : HostOp) : HostEffect k s (hostWhenIdle k s op) := by
  cases op with
  | readReg sel => exact .answered _
  | writeReg sel v => exact .wroteReg _ (hostWriteReg_frame s sel v)
  | readBuf sel off => exact .answered _
  | writeBuf sel off v =>
    show HostEffect k s (hostWriteBuf k.capacities s sel off v)
    obtain h | ⟨b, hoff, h⟩ := hostWriteBuf_cases k.capacities s sel off v <;> rw [h]
    · exact .ignored
    · exact .wroteByte b off v hoff
  | reset => exact .reset

theorem hostWhenBusy_effect (k : Parameters) (s : State) (op : HostOp) :
    HostEffect k s (hostWhenBusy k.curve s op) := by
  cases op with
  | readReg | readBuf => exact .answered _
  | writeReg | writeBuf => exact .ignored
  | reset => exact .reset

@[simp] theorem State.buf_withHostIn (s : State) (rest : List HostAccess) (b : Buf) :
    State.buf { s with hostIn := rest } b = s.buf b := by
  cases b <;> rfl

/-- An idle CORE makes the host's next access. -/
theorem advance_of_idle (k : Parameters) {s : State} {op : HostOp} {wb : Bool} {rest : List HostAccess}
    (hr : s.running = none) (hin : s.hostIn = ⟨op, wb⟩ :: rest) :
    advance k s = .next (hostWhenIdle k { s with hostIn := rest } op) := by
  simp only [advance, hr, hin]

/-- What a step does: nothing; a host access; a command's end; an illegal word's error. -/
theorem advance_effect {k : Parameters} {s t : State} (h : advance k s = .next t) :
    t = s ∨ (∃ rest, HostEffect k { s with hostIn := rest } t) ∨ (∃ i, commandMeaning k i s = .next t) ∨
      t = s.raise .illegalCommand := by
  obtain ⟨-, -, h⟩ | ⟨a, rest, -, ⟨-, h⟩ | ⟨-, -, h⟩⟩ | ⟨w, -, ⟨i, -, h⟩ | ⟨-, h⟩⟩ := advance_cases h
  · exact .inl h
  · exact .inr (.inl ⟨rest, h ▸ hostWhenIdle_effect k _ a.op⟩)
  · exact .inr (.inl ⟨rest, h ▸ hostWhenBusy_effect k _ a.op⟩)
  · exact .inr (.inr (.inl ⟨i, h⟩))
  · exact .inr (.inr (.inr h))

end Sys2Proof.Machine
end

section
/-! O51. The buffers stay canonical and below their capacities, and `OKM_LEN` in range. -/

namespace Sys2Proof.Machine

/-- The invariant of O51 (R24, R37, R64). -/
structure State.BuffersInBounds (k : Capacities) (s : State) : Prop where
  buffers : s.BuffersCanonical k
  okmLen : s.OkmLenInRange

/-- The invariant speaks of the contents of the buffers and of `OKM_LEN` only. -/
theorem State.BuffersInBounds.of_eq {k : Capacities} {s t : State} (h : s.BuffersInBounds k)
    (hb : ∀ b, t.buf b = s.buf b) (hl : t.okmLen = s.okmLen) : t.BuffersInBounds k where
  buffers := fun b => by rw [hb]; exact h.buffers b
  okmLen := by rw [State.OkmLenInRange, hl]; exact h.okmLen

/-- New contents of one buffer that lie within its capacity keep the invariant. -/
theorem State.BuffersInBounds.setBuf {k : Capacities} {s : State} (h : s.BuffersInBounds k) {b : Buf} {m : Memory}
    (hm : b.Holds k m) : (s.setBuf b m).BuffersInBounds k where
  buffers := fun b' => by
    by_cases hb : b' = b
    · subst hb; rw [State.buf_setBuf_self]; exact hm
    · rw [State.buf_setBuf_of_ne _ _ hb]; exact h.buffers b'
  okmLen := by rw [State.OkmLenInRange, State.setBuf_okmLen]; exact h.okmLen

/-- A length within the capacity of its buffer keeps the invariant, which speaks of `OKM_LEN` only. -/
theorem State.BuffersInBounds.setBufLen {k : Capacities} {s : State} (h : s.BuffersInBounds k) {b : Buf} {n : Nat}
    (hn : n ≤ b.cap k) : (s.setBufLen b (BitVec.ofNat 32 n)).BuffersInBounds k where
  buffers := fun b' => by rw [State.buf_setBufLen]; exact h.buffers b'
  okmLen := by
    cases b with
    | okm => exact (Nat.mod_le _ _).trans hn
    | enc | ikm | salt | info => exact h.okmLen

/-- A byte string that fits its buffer is delivered within the bounds (R63). -/
theorem State.BuffersInBounds.deliver {k : Capacities} {s : State} (h : s.BuffersInBounds k) {b : Buf}
    {bytes : List Byte} (hlen : bytes.length ≤ b.cap k) : (s.deliver b bytes).BuffersInBounds k :=
  (h.setBuf (Buf.holds_memWrite bytes (h.buffers b) (by omega))).setBufLen hlen

theorem hostReset_buffersInBounds (k : Capacities) (s : State) : (hostReset s).BuffersInBounds k where
  buffers := fun b => by cases b <;> exact ⟨⟨.nil, nofun⟩, nofun⟩
  okmLen := Nat.zero_le _

theorem HostEffect.buffersInBounds {k : Parameters} {s t : State} (he : HostEffect k s t)
    (h : s.BuffersInBounds k.capacities) : t.BuffersInBounds k.capacities := by
  cases he with
  | ignored => exact h
  | answered a => exact h.of_eq (by simp) rfl
  | wroteReg t hf => exact h.of_eq (fun b => by rw [hf]; cases b <;> rfl) (by rw [hf])
  | wroteByte b off v hoff => exact h.setBuf (Buf.holds_write (h.buffers b) hoff v)
  | reset => exact hostReset_buffersInBounds _ s

theorem Ending.buffersInBounds {k : Capacities} {i : Instr} {s t : State} (he : Ending i s t)
    (h : s.BuffersInBounds k) : t.BuffersInBounds k := by
  cases he with
  | failed | keygenFailed | wroteReg | wrotePoint | wroteKeys => exact h.of_eq (by simp) rfl
  | stored b bytes hs hlen => exact (h.deliver (hlen k)).of_eq (by simp) rfl

theorem advance_buffersInBounds {k : Parameters} {s t : State} (ht : advance k s = .next t)
    (h : s.BuffersInBounds k.capacities) : t.BuffersInBounds k.capacities := by
  obtain rfl | ⟨rest, he⟩ | ⟨i, hi⟩ | rfl := advance_effect ht
  · exact h
  · exact he.buffersInBounds (h.of_eq (by simp) rfl)
  · exact (commandMeaning_cases hi).buffersInBounds h
  · exact h.of_eq (by simp) rfl

end Sys2Proof.Machine

namespace Sys2Proof.Proofs

open Sys2Proof.Machine

/-- Settles O51: `BuffersInBounds` is kept by every host access and every end of a command; `step` is the case at the
defaults. -/
theorem buffersStayWithinCapacity : Obligations.BuffersStayWithinCapacity := by
  have key : ∀ (k : Parameters) (s t : State), s.BuffersCanonical k.capacities → s.OkmLenInRange →
      advance k s = .next t → t.BuffersCanonical k.capacities ∧ t.OkmLenInRange := fun k s t hb hl ht =>
    have h := advance_buffersInBounds ht ⟨hb, hl⟩
    ⟨h.buffers, h.okmLen⟩
  exact ⟨key Config.parameters, key⟩

end Sys2Proof.Proofs
end

section
/-! The curves of prime order (R7): the group of every parameter whose curve has prime order, the scalar multiples, and
`KEYGEN`, whose assertion holds. -/

namespace Sys2Proof.Machine

open Sys2Proof.Spec Sys2Proof.Tests

/-! Points of a parameter's curve -/

/-- The model's curve test is the spec's equation (R111). -/
theorem onCurveXY_iff_onCurveOf {c : Curve} (hp : 0 < c.p) (x y : Nat) :
    onCurveXY c x y = true ↔ OnCurveOf c x y := by
  rw [onCurveXY, beq_iff_eq, residue_eq_zero_iff hp, OnCurveOf, eq_comm, ← Nat.ModEq, Nat.modEq_iff_dvd]
  push_cast
  ring_nf

theorem isOnCurve_of_wf {c : Curve} {P : Point} (h : P.wf c = true) : isOnCurve c P = true := by
  cases P with
  | inf => rfl
  | aff x y => exact (wf_aff_iff.1 h).2.2

/-- `G` is a point of every parameter's curve (D13). -/
theorem parameters_basePoint_wf (k : Parameters) : (basePoint k.curve).wf k.curve = true := by
  have hp := k.admissible.fits.1
  have hx := k.admissible.gx_lt
  have hy := k.admissible.gy_lt
  rw [basePoint, wf_aff_iff, BitVec.toNat_ofNat, BitVec.toNat_ofNat, Nat.mod_eq_of_lt (hx.trans hp),
    Nat.mod_eq_of_lt (hy.trans hp), onCurveXY_iff_onCurveOf (parameters_p_pos k)]
  exact ⟨hx, hy, k.admissible.base_mem⟩

/-- The draw of a `KEYGEN` lies in `[1, n − 1]` (R217). -/
theorem drawScalar_range (k : Parameters) (i : Nat) : 1 ≤ drawScalar k.curve i ∧ drawScalar k.curve i < k.curve.n := by
  have hn := k.admissible.n_prime.two_le
  have hmod := Nat.mod_lt (Config.randomSource i) (show 0 < k.curve.n - 1 by omega)
  unfold drawScalar
  omega

end Sys2Proof.Machine

namespace Sys2Proof.Spec

open Sys2Proof.Machine Sys2Proof.Tests

/-! Multiples -/

section
variable {k : Parameters} (hk : PrimeOrder k.curve)
include hk

theorem PrimeOrder.curveSound : CurveSound k.curve := parameters_curve_sound k hk.1

theorem PrimeOrder.multipleOf_wf {P : Point} (hP : P.wf k.curve = true) (j : Nat) :
    (multipleOf k.curve j P).wf k.curve = true :=
  haveI := parameters_p_prime k
  (multipleOf_group hk.curveSound hP j).1

/-- `n·P = ∞`, in the group. -/
theorem PrimeOrder.nsmul_groupPoint [Fact k.curve.p.Prime] {P : Point} (hP : P.wf k.curve = true) :
    k.curve.n • groupPoint k.curve P = 0 := by
  have hinf := hk.2 P ((wellFormedOf_iff (parameters_p_pos k) P).2 hP)
  rw [← (multipleOf_group hk.curveSound hP _).2, hinf, groupPoint_inf]

/-- `scalar_mult(j, P)` is `j·P`: the reduction mod `n` changes nothing (R141). -/
theorem PrimeOrder.scalarMult_eq {P : Point} (hP : P.wf k.curve = true) (j : Nat) :
    scalarMult k.curve j P = multipleOf k.curve j P := by
  have := parameters_p_prime k
  have hc := hk.curveSound
  obtain ⟨hw, hg⟩ := scalarMult_group hc j hP
  obtain ⟨hw', hg'⟩ := multipleOf_group hc hP j
  refine groupPoint_injective hc hw hw' ?_
  rw [hg, hg', nsmul_eq_mod_nsmul j (hk.nsmul_groupPoint hP)]

/-- `j·P = ∞` for a point other than infinity exactly when `n` divides `j`: `n` is prime (R141). -/
theorem PrimeOrder.multipleOf_eq_inf_iff {P : Point} (hP : P.wf k.curve = true) (hne : P ≠ .inf) (j : Nat) :
    multipleOf k.curve j P = .inf ↔ k.curve.n ∣ j := by
  have := parameters_p_prime k
  have : Fact k.curve.n.Prime := ⟨k.admissible.n_prime⟩
  have hc := hk.curveSound
  have hg : groupPoint k.curve P ≠ 0 := fun h => hne (groupPoint_injective hc hP rfl h)
  obtain ⟨hw, hj⟩ := multipleOf_group hc hP j
  calc multipleOf k.curve j P = .inf
      ↔ groupPoint k.curve (multipleOf k.curve j P) = 0 :=
        ⟨fun h => by rw [h, groupPoint_inf], fun h => groupPoint_injective hc hw rfl h⟩
    _ ↔ j • groupPoint k.curve P = 0 := by rw [hj]
    _ ↔ k.curve.n ∣ j := by
        rw [← addOrderOf_dvd_iff_nsmul_eq_zero, addOrderOf_eq_prime (hk.nsmul_groupPoint hP) hg]

/-- `d·G` is not infinity for `d` in `[1, n − 1]` (R151). -/
theorem PrimeOrder.multipleOf_base_ne_inf {d : Nat} (h1 : 1 ≤ d) (h2 : d < k.curve.n) :
    multipleOf k.curve d (basePoint k.curve) ≠ .inf := fun h =>
  Nat.not_dvd_of_pos_of_lt h1 h2
    ((hk.multipleOf_eq_inf_iff (parameters_basePoint_wf k) nofun d).1 h)

/-! `KEYGEN` -/

/-- The assertion of `KEYGEN` holds for every draw of `[1, n − 1]`: both keys are written (R151). -/
theorem PrimeOrder.keygenResult_eq {d : Nat} (h1 : 1 ≤ d) (h2 : d < k.curve.n) (rd : RIdx) (pd : PIdx) (s : State) :
    keygenResult k.curve d rd pd s
      = .ok ((s.setReg rd (BitVec.ofNat 256 d)).setPoint pd (multipleOf k.curve d (basePoint k.curve))) := by
  have hG := parameters_basePoint_wf k
  have hinf := hk.multipleOf_base_ne_inf h1 h2
  have hon := isOnCurve_of_wf (hk.multipleOf_wf hG d)
  simp only [keygenResult, hk.scalarMult_eq hG, hinf, hon, Bool.true_eq_false, or_self, if_false]

/-- `KEYGEN` ends without an error (R151). -/
theorem PrimeOrder.keygen_next (rd : RIdx) (pd : PIdx) (s : State) :
    commandMeaning k (.keygen rd pd) s = .next
      ((s.afterDraw.setReg rd (BitVec.ofNat 256 (drawScalar k.curve s.draws))).setPoint pd
        (multipleOf k.curve (drawScalar k.curve s.draws) (basePoint k.curve))).endOk := by
  obtain ⟨h1, h2⟩ := drawScalar_range k s.draws
  rw [commandMeaning, keygenCommand, hk.keygenResult_eq h1 h2, endCommand_ok]

end

end Sys2Proof.Spec
end

section
/-! O53. `STATUS.FATAL` is never set: the only command that could is `KEYGEN`, and its assertion holds. -/

namespace Sys2Proof.Machine

theorem HostEffect.fatal_eq_false {k : Parameters} {s t : State} (he : HostEffect k s t) (h : s.fatal = false) :
    t.fatal = false := by
  cases he with
  | ignored | answered => exact h
  | wroteReg t hf => rw [hf]; exact h
  | wroteByte => rw [State.setBuf_fatal]; exact h
  | reset => rfl

end Sys2Proof.Machine

namespace Sys2Proof.Spec

open Sys2Proof.Machine

/-- A command leaves `STATUS.FATAL` on a curve of prime order. -/
theorem PrimeOrder.commandMeaning_fatal {k : Parameters} (hk : PrimeOrder k.curve) {i : Instr} {s t : State}
    (h : commandMeaning k i s = .next t) : t.fatal = s.fatal := by
  cases commandMeaning_cases h with
  | failed e he hf => simp [hf]
  | keygenFailed rd pd hi =>
    rw [hi, hk.keygen_next] at h
    exact absurd (congrArg State.error (Host.Outcome.next.inj h)) Bool.false_ne_true
  | wroteReg | wrotePoint | wroteKeys | stored => simp

theorem PrimeOrder.advance_fatal {k : Parameters} (hk : PrimeOrder k.curve) {s t : State}
    (ht : advance k s = .next t) (h : s.fatal = false) : t.fatal = false := by
  obtain rfl | ⟨rest, he⟩ | ⟨i, hi⟩ | rfl := advance_effect ht
  · exact h
  · exact he.fatal_eq_false h
  · rw [hk.commandMeaning_fatal hi, h]
  · rw [State.raise_fatal, h]; rfl

end Sys2Proof.Spec

namespace Sys2Proof.Proofs

open Sys2Proof.Machine Sys2Proof.Tests

/-- Settles O53: no ending of a command sets `FATAL` but a failed `KEYGEN`, which a curve of prime order excludes; the
default curve has prime order. -/
theorem fatalIsNeverSet : Obligations.FatalIsNeverSet :=
  ⟨fun _ _ h ht => witness_prime_order.advance_fatal ht h,
    fun _ _ _ hk h ht => hk.advance_fatal ht h⟩

end Sys2Proof.Proofs
end

section
/-! O12, O15. The accesses of an idle host by their select number: those that are not allowed, and the write of one byte. -/

namespace Sys2Proof.Machine

open Sys2Proof.Spec

/-! Select numbers of registers (R26) -/

/-- Outside the windows, and at the fourth number of each point's window, no register is named. -/
theorem windowOfSelect_eq_none {n : Nat}
    (h : n < 0x20 ∨ (0x28 ≤ n ∧ n < 0x40) ∨ (0x40 ≤ n ∧ n % 4 = 3) ∨ 0x50 ≤ n) : windowOfSelect n = none := by
  unfold windowOfSelect
  split_ifs
  · omega
  · have h3 : (n - 0x40) % 4 = 3 := by omega
    simp only [h3]
  · rfl

theorem HostReg.ofSelect_of_reserved {sel : BitVec 8} (h : Reserved sel) : HostReg.ofSelect sel = none := by
  have hw : windowOfSelect sel.toNat = none := windowOfSelect_eq_none (by omega)
  unfold HostReg.ofSelect
  split
  case h_17 => exact hw
  all_goals omega

/-- The registers the host may write (R58). -/
def HostReg.hostWritable : HostReg → Bool
  | .cmd | .encLen | .ikmLen | .saltLen | .infoLen | .okmReq | .r _ => true
  | .id | .status | .err | .okmLen | .constP | .constA | .constB | .constGx | .constGy | .constN => false
  | .ptInf _ | .ptX _ | .ptY _ => false

theorem State.writeHostReg_of_not_writable {g : HostReg} (h : g.hostWritable = false) (s : State) (v : Word256) :
    s.writeHostReg v g = s := by
  cases g with
  | cmd | encLen | ikmLen | saltLen | infoLen | okmReq | r => cases h
  | id | status | err | okmLen | constP | constA | constB | constGx | constGy | constN | ptInf | ptX | ptY => rfl

/-- The windows from 0x28 on, those on the point registers, are read-only (R39). -/
theorem hostWritable_of_windowOfSelect {n : Nat} {g : HostReg} (hn : 0x28 ≤ n) (h : windowOfSelect n = some g) :
    g.hostWritable = false := by
  unfold windowOfSelect at h
  split_ifs at h
  · omega
  · dsimp only at h
    split at h <;> cases h <;> rfl

theorem hostWritable_of_readOnly {sel : BitVec 8} {g : HostReg} (h : ReadOnly sel) (hg : HostReg.ofSelect sel = some g) :
    g.hostWritable = false := by
  have hw : windowOfSelect sel.toNat = some g → g.hostWritable = false := by
    by_cases hn : 0x28 ≤ sel.toNat
    · exact hostWritable_of_windowOfSelect hn
    · rw [windowOfSelect_eq_none (by omega)]; nofun
  unfold HostReg.ofSelect at hg
  split at hg
  case h_17 => exact hw hg
  all_goals first | omega | (cases hg; rfl)

/-- A write of a reserved number or of a read-only register is ignored (R58). -/
theorem hostWriteReg_of_disallowed {sel : BitVec 8} (h : Reserved sel ∨ ReadOnly sel) (s : State) (v : Word256) :
    hostWriteReg s sel v = s := by
  unfold hostWriteReg
  split
  next g hg =>
    obtain h | h := h
    · rw [HostReg.ofSelect_of_reserved h] at hg; cases hg
    · exact State.writeHostReg_of_not_writable (hostWritable_of_readOnly h hg) s v
  · rfl

/-- A read of a reserved number or of `CMD` returns 0 (R29, R58). -/
theorem hostReadReg_of_disallowed {sel : BitVec 8} (h : Reserved sel ∨ sel = 0x01) (c : Curve) (s : State) :
    hostReadReg c s sel = 0 := by
  obtain h | rfl := h
  · rw [hostReadReg, HostReg.ofSelect_of_reserved h]
  · rfl

/-! Select numbers of buffers (R26) -/

theorem Buf.ofSelect_of_reserved {sel : BitVec 8} (h : Reserved sel) : Buf.ofSelect sel = none := by
  unfold Buf.ofSelect
  split
  case h_6 => rfl
  all_goals omega

/-- The select number of a buffer (R26). -/
def Buf.select : Buf → BitVec 8
  | .enc => 0x80
  | .ikm => 0x81
  | .salt => 0x82
  | .info => 0x83
  | .okm => 0x84

theorem Buf.eq_select {sel : BitVec 8} {b : Buf} (h : Buf.ofSelect sel = some b) : sel = b.select := by
  apply BitVec.eq_of_toNat_eq
  unfold Buf.ofSelect at h
  split at h <;> cases h <;> assumption

theorem Buf.ofSelect_of_toNat {sel : BitVec 8} {b : Buf} (h : sel.toNat = b.select.toNat) :
    Buf.ofSelect sel = some b := by
  rw [BitVec.eq_of_toNat_eq h]
  cases b <;> rfl

/-- The capacity of a buffer's select number is the buffer's (R6). -/
theorem capacity_of_ofSelect (k : Capacities) {sel : BitVec 8} {b : Buf} (h : Buf.ofSelect sel = some b) :
    capacity k sel = some (b.cap k) := by
  rw [Buf.eq_select h]
  cases b <;> rfl

/-- A select number that has a capacity names a buffer. -/
theorem exists_ofSelect_of_capacity {k : Capacities} {sel : BitVec 8} {c : Nat} (h : capacity k sel = some c) :
    ∃ b, Buf.ofSelect sel = some b := by
  unfold capacity at h
  split at h
  next hs => exact ⟨.enc, Buf.ofSelect_of_toNat hs⟩
  next hs => exact ⟨.ikm, Buf.ofSelect_of_toNat hs⟩
  next hs => exact ⟨.salt, Buf.ofSelect_of_toNat hs⟩
  next hs => exact ⟨.info, Buf.ofSelect_of_toNat hs⟩
  next hs => exact ⟨.okm, Buf.ofSelect_of_toNat hs⟩
  next => cases h

/-- `OKM` is the one buffer the host may not write (R24). -/
theorem Buf.hostWritable_of_ne {b : Buf} (h : b ≠ .okm) : b.hostWritable = true := by
  cases b with
  | okm => exact absurd rfl h
  | enc | ikm | salt | info => rfl

/-- An offset at or beyond the capacity of the select number's buffer, if the number names one. -/
theorem le_of_ofSelect {k : Capacities} {sel : BitVec 8} {off : Nat} {b : Buf}
    (h : Reserved sel ∨ ∃ c, capacity k sel = some c ∧ c ≤ off) (hb : Buf.ofSelect sel = some b) : b.cap k ≤ off := by
  obtain h | ⟨c, hc, hoff⟩ := h
  · rw [Buf.ofSelect_of_reserved h] at hb; cases hb
  · rw [capacity_of_ofSelect k hb] at hc; cases hc; exact hoff

/-- A read of a reserved number, or at or beyond the capacity, returns 0 (R58). -/
theorem hostReadBuf_of_disallowed {k : Capacities} {sel : BitVec 8} {off : Nat}
    (h : Reserved sel ∨ ∃ c, capacity k sel = some c ∧ c ≤ off) (s : State) : hostReadBuf k s sel off = 0 := by
  unfold hostReadBuf
  split
  next b hb => exact if_neg (not_lt.2 (le_of_ofSelect h hb))
  · rfl

/-- A write of a reserved number, of `OKM`, or at or beyond the capacity is ignored (R58). -/
theorem hostWriteBuf_of_disallowed {k : Capacities} {sel : BitVec 8} {off : Nat}
    (h : Reserved sel ∨ sel = 0x84 ∨ ∃ c, capacity k sel = some c ∧ c ≤ off) (s : State) (v : Byte) :
    hostWriteBuf k s sel off v = s := by
  obtain rfl | h := or_left_comm.1 h
  · rfl
  · unfold hostWriteBuf
    split
    next b hb =>
      have hoff : ¬off < b.cap k := not_lt.2 (le_of_ofSelect h hb)
      simp [hoff]
    · rfl

/-- A write below the capacity of a buffer other than `OKM` writes the byte (R53). -/
theorem hostWriteBuf_of_allowed {k : Capacities} {sel : BitVec 8} {off : Nat} {b : Buf}
    (hb : Buf.ofSelect sel = some b) (hne : b ≠ .okm) (hoff : off < b.cap k) (s : State) (v : Byte) :
    hostWriteBuf k s sel off v = s.setBuf b ((s.buf b).write off v) := by
  simp [hostWriteBuf, hb, Buf.hostWritable_of_ne hne, hoff]

/-- After the write of a byte to the buffer of `sel` a read returns that byte there, and what it did before elsewhere. -/
theorem hostReadBuf_setBuf (k : Capacities) {s : State} {sel : BitVec 8} {b : Buf} (hb : Buf.ofSelect sel = some b)
    (hm : (s.buf b).wf) {off : Nat} (hoff : off < b.cap k) (v : Byte) (sel' : BitVec 8) (off' : Nat) :
    hostReadBuf k (s.setBuf b ((s.buf b).write off v)) sel' off'
      = if sel' = sel ∧ off' = off then v else hostReadBuf k s sel' off' := by
  by_cases hs : sel' = sel
  · subst hs
    simp only [hostReadBuf, hb, State.buf_setBuf_self, Memory.read_write off off' v hm, true_and]
    by_cases ho : off' = off
    · simp [ho, hoff]
    · simp [ho]
  · rw [if_neg (fun h => hs h.1)]
    unfold hostReadBuf
    split
    next b' hb' =>
      have hne : b' ≠ b := fun h => hs (by rw [Buf.eq_select hb, Buf.eq_select hb', h])
      rw [State.buf_setBuf_of_ne _ _ hne]
    · rfl

/-- New contents of a buffer other than `OKM`, as an update of the record. -/
theorem State.setBuf_frame (s : State) {b : Buf} (hne : b ≠ .okm) (m : Memory) :
    s.setBuf b m = { s with enc := (s.setBuf b m).enc, ikm := (s.setBuf b m).ikm, salt := (s.setBuf b m).salt,
                            info := (s.setBuf b m).info } := by
  cases b with
  | okm => exact absurd rfl hne
  | enc | ikm | salt | info => rfl

end Sys2Proof.Machine

namespace Sys2Proof.Proofs

open Sys2Proof.Machine Sys2Proof.Spec

/-- Settles O12: an access that is not allowed reads 0 or leaves the state (R58). -/
theorem disallowedAccessDoesNothing : Obligations.DisallowedAccessDoesNothing := by
  intro k s op wb rest hr hin
  rw [advance_of_idle k hr hin]
  refine ⟨?_, ?_, ?_, ?_⟩
  · rintro sel rfl h
    rw [hostWhenIdle, hostReadReg_of_disallowed h]; rfl
  · rintro sel off rfl h
    rw [hostWhenIdle, hostReadBuf_of_disallowed h]; rfl
  · rintro sel v rfl h
    rw [hostWhenIdle, hostWriteReg_of_disallowed h]
  · rintro sel off v rfl h
    rw [hostWhenIdle, hostWriteBuf_of_disallowed h]

/-- Settles O15: the step is the write of one byte in one buffer's contents (`Memory.read_write`). -/
theorem hostByteWriteChangesOneByte : Obligations.HostByteWriteChangesOneByte := by
  intro k s sel off c v wb rest hr hwf hin hsel hc hoff
  obtain ⟨b, hb⟩ := exists_ofSelect_of_capacity hc
  rw [capacity_of_ofSelect k.capacities hb] at hc
  cases hc
  have hne : b ≠ .okm := fun h => hsel (by rw [Buf.eq_select hb, h]; rfl)
  have hwf' : ∀ b, (State.buf { s with hostIn := rest } b).wf := fun b => by
    rw [State.buf_withHostIn]; exact hwf b
  have hread := hostReadBuf_setBuf k.capacities hb (hwf' b) hoff v
  refine ⟨_, by rw [advance_of_idle k hr hin, hostWhenIdle, hostWriteBuf_of_allowed hb hne hoff], ?_, ?_, ?_, ?_⟩
  · rw [hread, if_pos ⟨rfl, rfl⟩]
  · intro sel' off' h
    rw [hread, if_neg (not_and_or.2 h)]
    rfl
  · intro b'
    by_cases h : b' = b
    · subst h; rw [State.buf_setBuf_self]; exact Memory.wf_write off v (hwf' b')
    · rw [State.buf_setBuf_of_ne _ _ h]; exact hwf' b'
  · exact State.setBuf_frame _ hne _

end Sys2Proof.Proofs
end

section
/-! O59. `SMUL`, `KEYGEN` and `ECDH` on every curve of prime order. -/

namespace Sys2Proof.Machine

open Sys2Proof.Spec

/-- Byte `i` of `I2OSP32(v)` (R10, R51). -/
theorem i2osp32_getD (v : Word256) {i : Nat} (hi : i < 32) : (i2osp32 v).getD i 0 = bigEndian v.toNat i := by
  rw [List.getD_eq_getElem _ _ (by rwa [i2osp32_length])]
  apply BitVec.eq_of_toNat_eq
  simp only [i2osp32, List.getElem_map, List.getElem_range, BitVec.extractLsb'_toNat, BitVec.toNat_ofNat,
    Nat.shiftRight_eq_div_pow]
  rw [show 248 - 8 * i = 8 * (31 - i) by omega, pow_mul]
  norm_num

/-! The shared secret, in the order of its checks (R153) -/

theorem sharedSecret_inf (c : Curve) (j : Nat) : sharedSecret c j .inf = .error .infinityNotAllowed := rfl

theorem sharedSecret_of_not_onCurve {c : Curve} (hp : 0 < c.p) {x y : Word256} (h : ¬OnCurveOf c x.toNat y.toNat)
    (j : Nat) : sharedSecret c j (.aff x y) = .error .pointNotOnCurve := by
  rw [← onCurveXY_iff_onCurveOf hp, Bool.not_eq_true] at h
  simp [sharedSecret, isOnCurve, h]

/-- `ECDH` raises the error of the shared secret (R153). -/
theorem ecdh_of_error {k : Parameters} {rs1 : RIdx} {ps2 : PIdx} {s : State} {e : ErrorKind}
    (h : sharedSecret k.curve s.r[rs1].toNat s.pt[ps2] = .error e) :
    commandMeaning k (.ecdh rs1 ps2) s = .next (s.raise e) := by
  simp only [commandMeaning, ecdhCommand, scalarOperand, pointOperand, State.reg, State.point, h, endCommand_error]

/-- `ECDH` delivers the shared secret into `IKM` (R153). -/
theorem ecdh_of_ok {k : Parameters} {rs1 : RIdx} {ps2 : PIdx} {s : State} {bytes : List Byte}
    (h : sharedSecret k.curve s.r[rs1].toNat s.pt[ps2] = .ok bytes) :
    commandMeaning k (.ecdh rs1 ps2) s = .next (s.deliver .ikm bytes).endOk := by
  simp only [commandMeaning, ecdhCommand, scalarOperand, pointOperand, State.reg, State.point, h, endCommand_ok]

/-- An error that is not fatal leaves what the spec's failed state has (R205). -/
theorem State.raise_eq_fails {e : ErrorKind} (he : e.isFatal = false) (s : State) : s.raise e = fails s e := by
  simp only [State.raise, he, Bool.or_false]

end Sys2Proof.Machine

namespace Sys2Proof.Spec

open Sys2Proof.Machine Sys2Proof.Tests

section
variable {k : Parameters} (hk : PrimeOrder k.curve)
include hk

/-- `SMUL` writes the multiple (R142). -/
theorem PrimeOrder.smul_next {s : State} {ps2 : PIdx} (hP : s.pt[ps2].wf k.curve = true) (pd : PIdx) (rs1 : RIdx) :
    commandMeaning k (.smul pd rs1 ps2) s
      = .next (writesThePoint s pd (multipleOf k.curve s.r[rs1].toNat s.pt[ps2])) := by
  rw [← hk.scalarMult_eq hP]
  rfl

/-- The shared secret of a point whose multiple is infinity is refused (R152). -/
theorem PrimeOrder.sharedSecret_of_inf {P : Point} (hP : P.wf k.curve = true) (hne : P ≠ .inf) {j : Nat}
    (h : multipleOf k.curve j P = .inf) : sharedSecret k.curve j P = .error .degenerateSharedSecret := by
  simp [sharedSecret, hne, isOnCurve_of_wf hP, hk.scalarMult_eq hP, h]

/-- The shared secret is the abscissa of the multiple (R152). -/
theorem PrimeOrder.sharedSecret_of_aff {P : Point} (hP : P.wf k.curve = true) (hne : P ≠ .inf) {j : Nat}
    {x y : Word256} (h : multipleOf k.curve j P = .aff x y) : sharedSecret k.curve j P = .ok (i2osp32 x) := by
  simp [sharedSecret, hne, isOnCurve_of_wf hP, hk.scalarMult_eq hP, h]

end

end Sys2Proof.Spec

namespace Sys2Proof.Machine

open Sys2Proof.Spec

/-- `ECDH` writes `IKM` and `IKM_LEN`, and nothing else (R153). -/
theorem deliver_ikm_endOk {bytes : List Byte} (h : bytes.length = 32) (s : State) :
    (s.deliver .ikm bytes).endOk = succeeds { s with ikm := memWrite s.ikm 0 bytes, ikmLen := 32 } := by
  rw [State.deliver, h]
  rfl

/-- The bytes of `IKM` after a 32-byte integer has been delivered into it (R51, R63). -/
theorem read_memWrite_i2osp32 {s : State} (hm : s.ikm.wf) (x : Word256) (off : Nat) :
    Memory.read (memWrite s.ikm 0 (i2osp32 x)) off
      = if off < 32 then bigEndian x.toNat off else Memory.read s.ikm off := by
  rw [read_memWrite off _ 0 hm, i2osp32_length]
  by_cases h : off < 32
  · rw [if_pos (by omega), if_pos h, Nat.sub_zero, i2osp32_getD x h]
  · rw [if_neg (by omega), if_neg h]

end Sys2Proof.Machine

namespace Sys2Proof.Proofs

open Sys2Proof.Machine Sys2Proof.Spec Sys2Proof.Tests

/-- Settles O59: on a curve of prime order `scalar_mult(j, P)` is `j·P` (`PrimeOrder.scalarMult_eq`), and `j·P = ∞` for an
affine point exactly when `n` divides `j` (`PrimeOrder.multipleOf_eq_inf_iff`). -/
theorem scalarCommandsOnEveryCurve : Obligations.ScalarCommandsOnEveryCurve := by
  intro k hk
  have hwf : ∀ P, WellFormedOf k.curve P → P.wf k.curve = true :=
    fun P => (wellFormedOf_iff (parameters_p_pos k) P).1
  refine ⟨?smul, ?keygen, ?draws, ?rejected, ?secret⟩
  case smul =>
    intro pd rs1 ps2 s hP
    exact ⟨hk.smul_next (hwf _ hP) pd rs1,
      (wellFormedOf_iff (parameters_p_pos k) _).2 (hk.multipleOf_wf (hwf _ hP) _)⟩
  case keygen =>
    intro rd pd s
    obtain ⟨h1, h2⟩ := drawScalar_range k s.draws
    exact ⟨_, h1, h2, hk.multipleOf_base_ne_inf h1 h2, hk.keygen_next rd pd s⟩
  case draws =>
    intro rd pd s d h1 h2
    exact hk.keygenResult_eq h1 h2 rd pd s
  case rejected =>
    intro rs1 ps2 s
    refine ⟨fun hP => ?_, fun x y hP hoff => ?_⟩
    · rw [ecdh_of_error (by rw [hP, sharedSecret_inf]), State.raise_eq_fails rfl]
    · rw [ecdh_of_error (by rw [hP, sharedSecret_of_not_onCurve (parameters_p_pos k) hoff]), State.raise_eq_fails rfl]
  case secret =>
    intro rs1 ps2 s hne hP hm
    have hinf := hk.multipleOf_eq_inf_iff (hwf _ hP) hne s.r[rs1].toNat
    rw [Nat.dvd_iff_mod_eq_zero] at hinf
    refine ⟨fun h0 => ?_, fun h0 => ?_⟩
    · rw [ecdh_of_error (hk.sharedSecret_of_inf (hwf _ hP) hne (hinf.2 h0)), State.raise_eq_fails rfl]
    · cases hQ : multipleOf k.curve s.r[rs1].toNat s.pt[ps2] with
      | inf => exact absurd (hinf.1 hQ) h0
      | aff x y =>
        have hnext := ecdh_of_ok (hk.sharedSecret_of_aff (hwf _ hP) hne hQ)
        rw [deliver_ikm_endOk (i2osp32_length x)] at hnext
        have hm' := wf_memWrite (i2osp32 x) 0 hm
        have hread := read_memWrite_i2osp32 hm x
        -- the new contents are opaque, so that the frame holds by the shape of the record
        generalize memWrite s.ikm 0 (i2osp32 x) = m at hnext hm' hread
        exact ⟨x, y, _, rfl, hnext, rfl, hm', hread⟩

end Sys2Proof.Proofs
end

section
/-! O55, O56. The parameters and their defaults. -/

namespace Sys2Proof.Machine

/-- `PINF`, `ENCODE` and `HKDF` do not look at the curve (R43). -/
theorem commandMeaning_of_capacities_eq {k k' : Parameters} (hc : k.capacities = k'.capacities) {i : Instr}
    (h : (∃ pd, i = .pinf pd) ∨ (∃ ps1 c, i = .encode ps1 c) ∨ i = .hkdf) (s : State) :
    commandMeaning k i s = commandMeaning k' i s := by
  obtain ⟨pd, rfl⟩ | ⟨ps1, c, rfl⟩ | rfl := h
  · rfl
  · rfl
  · rw [commandMeaning, commandMeaning, hc]

/-- An undisturbed step of a word that decodes is its command's meaning (R59, R73). -/
theorem advance_of_decode (k : Parameters) {s : State} {w : Word32} {i : Instr} (hr : s.running = some w)
    (hu : Spec.Undisturbed s) (hd : decodeWord w = .ok i) : advance k s = commandMeaning k i s := by
  rw [advance_of_running k hr hu, runCommand, hd]

end Sys2Proof.Machine

namespace Sys2Proof.Proofs

open Sys2Proof.Machine

/-- Settles O55: the bounds are fields of `Capacities`, and the commands' share is `commandMeaning_of_curve_eq`. -/
theorem capacitiesAreParametersWithDefaults : Obligations.CapacitiesAreParametersWithDefaults := by
  refine ⟨⟨rfl, rfl, rfl, rfl, rfl⟩, fun k => ⟨k.enc_ge, k.ikm_ge⟩, fun enc ikm salt info henc hikm => ?_, rfl,
    fun s => rfl, fun i s => (commandMeaning_default i s).symm, fun k k' i s hc hi => commandMeaning_of_curve_eq hc hi s,
    fun k s w i hr hu hd => advance_of_decode k hr hu hd⟩
  exact ⟨{ Config.parameters with capacities := ⟨enc, ikm, salt, info, henc, hikm⟩ }, rfl, rfl, rfl, rfl, rfl⟩

/-- Settles O56: the records taken are those that meet `Curve.Admissible`, whatever the capacities. -/
theorem curveIsAParameterWithDefault : Obligations.CurveIsAParameterWithDefault := by
  refine ⟨by decide +kernel, fun c caps => ⟨?taken, ?given⟩,
    fun k k' i s hc hi => commandMeaning_of_capacities_eq hc hi s⟩
  case taken =>
    rintro ⟨k, rfl, rfl⟩
    have h := k.admissible
    exact ⟨h.p_prime, h.p_mod_four, h.n_prime, h.gx_lt, h.gy_lt, h.base_mem, h.fits⟩
  case given =>
    rintro ⟨hp, hp4, hn, hgx, hgy, hbase, hfits⟩
    exact ⟨⟨c, caps, ⟨hp, hp4, hn, hgx, hgy, hbase, hfits⟩⟩, rfl, rfl⟩

end Sys2Proof.Proofs
end

section
/-! The operands, and the field commands for all parameters: one equation per command and per outcome (R90 to R96, R162,
R163). The point commands and the default curve use the same lemmas. Settles O57. -/

namespace Sys2Proof.Machine

open Sys2Proof.Spec

/-! Operands (R90) -/

section
variable {c : Curve} {s : State}

theorem fieldOperand_of_lt {rs : RIdx} (h : s.r[rs].toNat < c.p) : fieldOperand c s rs = .ok s.r[rs].toNat :=
  if_neg (not_le.2 h)

theorem fieldOperand_of_le {rs : RIdx} (h : c.p ≤ s.r[rs].toNat) : fieldOperand c s rs = .error .operandRange :=
  if_pos h

theorem fieldOperands_of_lt {rs1 rs2 : RIdx} (h1 : s.r[rs1].toNat < c.p) (h2 : s.r[rs2].toNat < c.p) :
    fieldOperands c s rs1 rs2 = .ok (s.r[rs1].toNat, s.r[rs2].toNat) :=
  if_neg (not_or.2 ⟨not_le.2 h1, not_le.2 h2⟩)

theorem fieldOperands_of_le {rs1 rs2 : RIdx} (h : c.p ≤ s.r[rs1].toNat ∨ c.p ≤ s.r[rs2].toNat) :
    fieldOperands c s rs1 rs2 = .error .operandRange :=
  if_pos h

/-- A command's error that is not fatal leaves the spec's failed state (R205). -/
theorem endCommand_fails {e : ErrorKind} (he : e.isFatal = false) : endCommand s (.error e) = .next (fails s e) := by
  rw [endCommand_error, State.raise_eq_fails he]

end

/-! Sums, differences and products of field elements (R91 to R93) -/

/-- The non-negative residue of a difference of field elements, in its two cases (R92). -/
theorem residue_sub_of_lt {c : Curve} {x y : Nat} (hx : x < c.p) (hy : y < c.p) :
    residue c ((x : Int) - y) = if y ≤ x then x - y else x + c.p - y := by
  split_ifs with h
  · have hcast : (x : Int) - y = ((x - y : Nat) : Int) := by omega
    rw [hcast, residue_natCast_of_lt (by omega)]
  · have hcast : (x : Int) - y = ((x + c.p - y : Nat) : Int) - c.p := by omega
    rw [residue, hcast, Int.sub_emod_right, ← residue, residue_natCast_of_lt (by omega)]

section
variable (k : Parameters) (rd : RIdx) {rs1 rs2 : RIdx} {s : State}

theorem fadd_of_lt (hx : s.r[rs1].toNat < k.curve.p) (hy : s.r[rs2].toNat < k.curve.p) :
    commandMeaning k (.fadd rd rs1 rs2) s
      = .next (writesNumber s rd ((s.r[rs1].toNat + s.r[rs2].toNat) % k.curve.p)) := by
  have hv := residue_natCast (parameters_p_pos k) (s.r[rs1].toNat + s.r[rs2].toNat)
  rw [Nat.cast_add] at hv
  simp only [commandMeaning, faddCommand, fieldOperands_of_lt hx hy, endCommand_ok, fieldWord, hv]
  rfl

theorem fsub_of_lt (hx : s.r[rs1].toNat < k.curve.p) (hy : s.r[rs2].toNat < k.curve.p) :
    commandMeaning k (.fsub rd rs1 rs2) s
      = .next (writesNumber s rd (if s.r[rs2].toNat ≤ s.r[rs1].toNat then s.r[rs1].toNat - s.r[rs2].toNat
          else s.r[rs1].toNat + k.curve.p - s.r[rs2].toNat)) := by
  simp only [commandMeaning, fsubCommand, fieldOperands_of_lt hx hy, endCommand_ok, fieldWord,
    residue_sub_of_lt hx hy]
  rfl

theorem fmul_of_lt (hx : s.r[rs1].toNat < k.curve.p) (hy : s.r[rs2].toNat < k.curve.p) :
    commandMeaning k (.fmul rd rs1 rs2) s
      = .next (writesNumber s rd (s.r[rs1].toNat * s.r[rs2].toNat % k.curve.p)) := by
  have hv := residue_natCast (parameters_p_pos k) (s.r[rs1].toNat * s.r[rs2].toNat)
  rw [Nat.cast_mul] at hv
  simp only [commandMeaning, fmulCommand, fieldOperands_of_lt hx hy, endCommand_ok, fieldWord, hv]
  rfl

section
variable (h : k.curve.p ≤ s.r[rs1].toNat ∨ k.curve.p ≤ s.r[rs2].toNat)
include h

theorem fadd_of_le : commandMeaning k (.fadd rd rs1 rs2) s = .next (fails s .operandRange) := by
  simp only [commandMeaning, faddCommand, fieldOperands_of_le h]
  exact endCommand_fails rfl

theorem fsub_of_le : commandMeaning k (.fsub rd rs1 rs2) s = .next (fails s .operandRange) := by
  simp only [commandMeaning, fsubCommand, fieldOperands_of_le h]
  exact endCommand_fails rfl

theorem fmul_of_le : commandMeaning k (.fmul rd rs1 rs2) s = .next (fails s .operandRange) := by
  simp only [commandMeaning, fmulCommand, fieldOperands_of_le h]
  exact endCommand_fails rfl

end

/-! Inverses (R95, R96) -/

/-- `x^(p−2)` is the inverse of `x`, by Fermat's theorem (R95). -/
theorem mul_pow_sub_two_mod {q x : Nat} (hq : q.Prime) (hx : x < q) (h0 : x ≠ 0) : x * (x ^ (q - 2) % q) % q = 1 := by
  have hcop : Nat.Coprime x q := (Nat.coprime_of_lt_prime h0 hx hq).symm
  have hfermat := Nat.ModEq.pow_totient hcop
  rw [Nat.totient_prime hq, Nat.ModEq, Nat.mod_eq_of_lt hq.one_lt] at hfermat
  rw [Nat.mul_mod_mod, ← pow_succ', show q - 2 + 1 = q - 1 by have := hq.two_le; omega, hfermat]

theorem finv_of_lt (hx : s.r[rs1].toNat < k.curve.p) (h0 : s.r[rs1].toNat ≠ 0) :
    commandMeaning k (.finv rd rs1) s
      = .next (writesNumber s rd (s.r[rs1].toNat ^ (k.curve.p - 2) % k.curve.p)) := by
  have hv : residue k.curve (fInv k.curve s.r[rs1].toNat) = s.r[rs1].toNat ^ (k.curve.p - 2) % k.curve.p := by
    rw [residue_natCast_of_lt (fInv_lt (parameters_p_pos k) _), fInv_of_ne_zero h0]
  simp only [commandMeaning, finvCommand, fieldOperand_of_lt hx, if_neg h0, endCommand_ok, fieldWord, hv]
  rfl

theorem finv_of_zero (h0 : s.r[rs1].toNat = 0) :
    commandMeaning k (.finv rd rs1) s = .next (fails s .inverseOfZero) := by
  have hx : s.r[rs1].toNat < k.curve.p := h0 ▸ parameters_p_pos k
  simp only [commandMeaning, finvCommand, fieldOperand_of_lt hx, if_pos h0]
  exact endCommand_fails rfl

theorem finv_of_le (h : k.curve.p ≤ s.r[rs1].toNat) :
    commandMeaning k (.finv rd rs1) s = .next (fails s .operandRange) := by
  simp only [commandMeaning, finvCommand, fieldOperand_of_le h]
  exact endCommand_fails rfl

end

/-! Square roots (R162) -/

section
variable {c : Curve} [hp : Fact c.p.Prime]

/-- `v` is a square mod `p`, in numbers and in the field. -/
theorem isSquare_cast_iff {v : Nat} (hv : v < c.p) : IsSquare (v : ZMod c.p) ↔ ∃ u, u * u % c.p = v := by
  have key : ∀ u : Nat, (v : ZMod c.p) = u * u ↔ u * u % c.p = v := fun u => by
    rw [← Nat.cast_mul, ZMod.natCast_eq_natCast_iff', Nat.mod_eq_of_lt hv, eq_comm]
  constructor
  · rintro ⟨r, hr⟩
    exact ⟨r.val, (key _).1 (by rwa [ZMod.natCast_zmod_val])⟩
  · rintro ⟨u, hu⟩
    exact ⟨u, (key u).2 hu⟩

/-- The Legendre symbol as the model computes it is Euler's criterion (R162). -/
theorem legendre_eq_one_iff (hodd : c.p % 2 = 1) {v : Nat} (hv : v < c.p) (h0 : v ≠ 0) :
    modexp v ((c.p - 1) / 2) c.p = 1 ↔ ∃ u, u * u % c.p = v := by
  have hcast : (v : ZMod c.p) ≠ 0 := (cast_eq_zero_of_lt hv).not.2 h0
  rw [← isSquare_cast_iff hv, ZMod.euler_criterion c.p hcast, modexp_eq, show (c.p - 1) / 2 = c.p / 2 by omega,
    ← Nat.cast_pow, ← Nat.cast_one (R := ZMod c.p), ZMod.natCast_eq_natCast_iff', Nat.mod_eq_of_lt hp.out.one_lt]

/-- The root of a square is `v^((p+1)/4) mod p` (R162); for `v = 0` too. -/
theorem modularSqrt_of_square (h4 : c.p % 4 = 3) {v : Nat} (hv : v < c.p) (h : ∃ u, u * u % c.p = v) :
    modularSqrt c v = some (v ^ ((c.p + 1) / 4) % c.p) := by
  by_cases h0 : v = 0
  · rw [modularSqrt, if_pos h0, h0, zero_pow (by omega), Nat.zero_mod]
  · rw [modularSqrt, if_neg h0, if_neg (not_not.2 ((legendre_eq_one_iff (by omega) hv h0).2 h)), modexp_eq]

theorem modularSqrt_of_not_square (hodd : c.p % 2 = 1) {v : Nat} (hv : v < c.p) (h : ¬∃ u, u * u % c.p = v) :
    modularSqrt c v = none := by
  have h0 : v ≠ 0 := fun h0 => h ⟨0, by rw [h0, Nat.zero_mod]⟩
  rw [modularSqrt, if_neg h0, if_pos ((legendre_eq_one_iff hodd hv h0).not.2 h)]

/-- The square of `v^((p+1)/4)` is `v`, if `v` is a square: `u^(p−1) = 1` for `v = u²` (R162). -/
theorem sq_pow_mod (h4 : c.p % 4 = 3) {v : Nat} (hv : v < c.p) (h : ∃ u, u * u % c.p = v) :
    v ^ ((c.p + 1) / 4) % c.p * (v ^ ((c.p + 1) / 4) % c.p) % c.p = v := by
  obtain ⟨r, hr⟩ := (isSquare_cast_iff hv).2 h
  have hroot : (v : ZMod c.p) ^ ((c.p + 1) / 4) * (v : ZMod c.p) ^ ((c.p + 1) / 4) = v := by
    calc (v : ZMod c.p) ^ ((c.p + 1) / 4) * (v : ZMod c.p) ^ ((c.p + 1) / 4)
        = r ^ c.p * r := by
          rw [hr, ← pow_two, ← pow_mul, ← pow_two, ← pow_mul, ← pow_succ]
          exact congrArg (r ^ ·) (by omega)
      _ = v := by rw [ZMod.pow_card, hr]
  rw [← Nat.mul_mod]
  conv_rhs => rw [← Nat.mod_eq_of_lt hv]
  rw [← ZMod.natCast_eq_natCast_iff']
  push_cast
  exact hroot

end

section
variable (k : Parameters) (rd : RIdx) {rs1 : RIdx} {s : State}

theorem parameters_p_odd : k.curve.p % 2 = 1 := by
  have := k.admissible.p_mod_four
  omega

theorem fsqrt_of_square (hx : s.r[rs1].toNat < k.curve.p) (h : ∃ u, u * u % k.curve.p = s.r[rs1].toNat) :
    commandMeaning k (.fsqrt rd rs1) s
      = .next (writesNumber s rd (s.r[rs1].toNat ^ ((k.curve.p + 1) / 4) % k.curve.p)) := by
  have := parameters_p_prime k
  have hv := residue_natCast_of_lt (Nat.mod_lt (s.r[rs1].toNat ^ ((k.curve.p + 1) / 4)) (parameters_p_pos k))
  simp only [commandMeaning, fsqrtCommand, fieldOperand_of_lt hx,
    modularSqrt_of_square k.admissible.p_mod_four hx h, endCommand_ok, fieldWord, hv]
  rfl

theorem fsqrt_of_not_square (hx : s.r[rs1].toNat < k.curve.p) (h : ¬∃ u, u * u % k.curve.p = s.r[rs1].toNat) :
    commandMeaning k (.fsqrt rd rs1) s = .next (fails s .noSquareRoot) := by
  have := parameters_p_prime k
  simp only [commandMeaning, fsqrtCommand, fieldOperand_of_lt hx,
    modularSqrt_of_not_square (parameters_p_odd k) hx h]
  exact endCommand_fails rfl

theorem fsqrt_of_le (h : k.curve.p ≤ s.r[rs1].toNat) :
    commandMeaning k (.fsqrt rd rs1) s = .next (fails s .operandRange) := by
  simp only [commandMeaning, fsqrtCommand, fieldOperand_of_le h]
  exact endCommand_fails rfl

end

end Sys2Proof.Machine

namespace Sys2Proof.Proofs

open Sys2Proof.Machine

/-- Settles O57: one equation per command and outcome; the inverse is one by Fermat's theorem, the root by Euler's
criterion. -/
theorem fieldCommandsOnEveryCurve : Obligations.FieldCommandsOnEveryCurve := by
  rintro k rd rs1 rs2 s _ _ _ rfl rfl rfl
  have := parameters_p_prime k
  exact ⟨fun hx hy => ⟨fadd_of_lt k rd hx hy, fsub_of_lt k rd hx hy, fmul_of_lt k rd hx hy⟩,
    fun h => ⟨fadd_of_le k rd h, fsub_of_le k rd h, fmul_of_le k rd h⟩,
    fun hx h0 => ⟨_, rfl, mul_pow_sub_two_mod k.admissible.p_prime hx h0, finv_of_lt k rd hx h0⟩,
    fun h0 => finv_of_zero k rd h0,
    fun hx h => ⟨_, rfl, sq_pow_mod k.admissible.p_mod_four hx h, fsqrt_of_square k rd hx h⟩,
    fun hx h => fsqrt_of_not_square k rd hx h,
    fun h => ⟨finv_of_le k rd h, fsqrt_of_le k rd h⟩⟩

end Sys2Proof.Proofs
end

section
/-! The point commands for all parameters: one equation per command and per outcome, the adder's five cases, and the group
laws (R111 to R125). The statements on the default curve are their cases. Settles O58. -/

namespace Sys2Proof.Machine

open Sys2Proof.Spec Sys2Proof.Tests

/-! `PSET` and `ONCURVE` (R120, R121) -/

section
variable (k : Parameters) {rs1 rs2 : RIdx} {s : State}

section
variable (hx : s.r[rs1].toNat < k.curve.p) (hy : s.r[rs2].toNat < k.curve.p)
include hx hy

theorem pset_of_onCurve (pd : PIdx) (h : OnCurveOf k.curve s.r[rs1].toNat s.r[rs2].toNat) :
    commandMeaning k (.pset pd rs1 rs2) s = .next (writesThePoint s pd (.aff s.r[rs1] s.r[rs2])) := by
  have hon := (onCurveXY_iff_onCurveOf (parameters_p_pos k) _ _).2 h
  simp only [commandMeaning, psetCommand, fieldOperands_of_lt hx hy, if_pos hon, endCommand_ok]
  rfl

theorem pset_of_not_onCurve (pd : PIdx) (h : ¬OnCurveOf k.curve s.r[rs1].toNat s.r[rs2].toNat) :
    commandMeaning k (.pset pd rs1 rs2) s = .next (fails s .pointNotOnCurve) := by
  have hoff := (onCurveXY_iff_onCurveOf (parameters_p_pos k) _ _).not.2 h
  simp only [commandMeaning, psetCommand, fieldOperands_of_lt hx hy, if_neg hoff]
  exact endCommand_fails rfl

theorem oncurve_of_lt (rd : RIdx) : commandMeaning k (.oncurve rd rs1 rs2) s
    = .next (writesNumber s rd (if OnCurveOf k.curve s.r[rs1].toNat s.r[rs2].toNat then 1 else 0)) := by
  simp only [commandMeaning, oncurveCommand, fieldOperands_of_lt hx hy, endCommand_ok,
    onCurveXY_iff_onCurveOf (parameters_p_pos k)]
  split_ifs <;> rfl

end

section
variable (h : k.curve.p ≤ s.r[rs1].toNat ∨ k.curve.p ≤ s.r[rs2].toNat)
include h

theorem pset_of_le (pd : PIdx) : commandMeaning k (.pset pd rs1 rs2) s = .next (fails s .operandRange) := by
  simp only [commandMeaning, psetCommand, fieldOperands_of_le h]
  exact endCommand_fails rfl

theorem oncurve_of_le (rd : RIdx) : commandMeaning k (.oncurve rd rs1 rs2) s = .next (fails s .operandRange) := by
  simp only [commandMeaning, oncurveCommand, fieldOperands_of_le h]
  exact endCommand_fails rfl

end

end

/-! The negator (R112), on every curve -/

/-- The ordinate of the negative (R112). -/
theorem toNat_fieldWord_neg {c : Curve} (hw : c.p < 2 ^ 256) {y : Nat} (hy : y < c.p) :
    (fieldWord c (0 - (y : Int))).toNat = if y = 0 then 0 else c.p - y := by
  have h := residue_sub_of_lt (c := c) (x := 0) (by omega) hy
  rw [Nat.cast_zero] at h
  rw [fieldWord_toNat (by omega) hw, h]
  split_ifs <;> omega

/-- The curve equation depends on the square of the ordinate only (R111). -/
theorem onCurveOf_neg {c : Curve} {x y : Nat} (h : OnCurveOf c x y) (hy : y ≤ c.p) : OnCurveOf c x (c.p - y) := by
  have hsq : (c.p - y) * (c.p - y) % c.p = y * y % c.p := by
    refine Nat.modEq_iff_dvd.2 ⟨2 * y - c.p, ?_⟩
    push_cast [hy]
    ring
  rw [OnCurveOf, hsq]
  exact h

/-- The negative of an affine point is affine, with the same abscissa, and well-formed (R112). -/
theorem ptNeg_aff (k : Parameters) {x y : Word256} (h : WellFormedOf k.curve (.aff x y)) :
    ∃ y' : Word256, ptNeg k.curve (.aff x y) = .aff x y' ∧
      y'.toNat = (if y.toNat = 0 then 0 else k.curve.p - y.toNat) ∧ WellFormedOf k.curve (.aff x y') := by
  obtain ⟨⟨⟩⟩ | ⟨_, _, ⟨⟩, hx, hy, hon⟩ := h
  have hy' := toNat_fieldWord_neg k.admissible.fits.1 hy
  refine ⟨_, rfl, hy', .inr ⟨x, _, rfl, hx, ?_⟩⟩
  rw [hy']
  split_ifs with h0
  · exact ⟨parameters_p_pos k, h0 ▸ hon⟩
  · exact ⟨by omega, onCurveOf_neg hon hy.le⟩

theorem ptNeg_wf (k : Parameters) {P : Point} (hP : P.wf k.curve = true) : (ptNeg k.curve P).wf k.curve = true := by
  cases P with
  | inf => rfl
  | aff x y =>
    obtain ⟨y', heq, -, hwf⟩ := ptNeg_aff k ((wellFormedOf_iff (parameters_p_pos k) _).2 hP)
    rw [heq]
    exact (wellFormedOf_iff (parameters_p_pos k) _).1 hwf

/-! The adder computes the sum by the line through the two points (R113) -/

section
variable {c : Curve}

/-- The third point of a line, its coordinates given by the line's equation (R113). -/
theorem thirdPoint_eq (hp : 0 < c.p) (m x1 y1 x2 : Int) :
    ∃ x3 y3 : Nat, x3 < c.p ∧ y3 < c.p ∧ thirdPoint c m x1 y1 x2 = pointOf x3 y3 ∧
      (m * m - x1 - x2) % c.p = x3 ∧ (m * (x1 - x3) - y1) % c.p = y3 := by
  have hx3 := residue_lt hp (m * m - x1 - x2)
  refine ⟨_, _, hx3, residue_lt hp _, ?_, (residue_cast hp _).symm, (residue_cast hp _).symm⟩
  simp only [thirdPoint, affine, fieldWord, residue_natCast_of_lt hx3]

variable [Fact c.p.Prime]

/-- The tangent's slope, by the equation of the tangent (R113 case 4). -/
theorem tangentSlope_mul_mod (hc : CurveSound c) (x : Nat) {y : Nat} (hy : (y : ZMod c.p) ≠ 0) :
    residue c ((3 * x * x + c.a) * fInv c (residue c (2 * y))) * (2 * y) % c.p = (3 * x * x + c.a) % c.p := by
  have h2y : ((residue c (2 * (y : Int)) : Nat) : ZMod c.p) = 2 * y := by
    rw [residue_zmod hc.pos]; push_cast; rfl
  have hne : (2 : ZMod c.p) * y ≠ 0 := mul_ne_zero (two_ne_zero_zmod hc) hy
  rw [← ZMod.natCast_eq_natCast_iff']
  push_cast
  rw [residue_zmod hc.pos]
  push_cast
  rw [fInv_zmod (by rwa [h2y]), h2y, inv_mul_cancel_right₀ hne]

/-- The chord's slope, by the equation of the chord (R113 case 5). -/
theorem chordSlope_mul_emod (hc : CurveSound c) {x1 x2 : Nat} (y1 y2 : Nat) (hx : (x1 : ZMod c.p) ≠ x2) :
    (chordSlope c x1 y1 x2 y2 * ((x2 : Int) - x1)) % c.p = ((y2 : Int) - y1) % c.p := by
  have hdx : ((residue c ((x2 : Int) - x1) : Nat) : ZMod c.p) = x2 - x1 := by
    rw [residue_zmod hc.pos]; push_cast; rfl
  have hne : (x2 : ZMod c.p) - x1 ≠ 0 := sub_ne_zero.2 hx.symm
  rw [← Int.ModEq, ← ZMod.intCast_eq_intCast_iff, chordSlope]
  push_cast
  rw [residue_zmod hc.pos]
  push_cast
  rw [fInv_zmod (by rwa [hdx]), hdx, inv_mul_cancel_right₀ hne]

/-- Points of the curve that are neither equal nor an inverse pair have different abscissas (R113). -/
theorem abscissas_ne (hc : CurveSound c) {x1 y1 x2 y2 : Word256} (h1 : Point.wf c (.aff x1 y1) = true)
    (h2 : Point.wf c (.aff x2 y2) = true) (hinv : ¬(x1 = x2 ∧ (y1.toNat + y2.toNat) % c.p = 0))
    (hsame : ¬(x1 = x2 ∧ y1 = y2)) : (x1.toNat : ZMod c.p) ≠ (x2.toNat : Nat) := by
  intro hx
  obtain ⟨hx1, hy1, hon1⟩ := wf_aff_iff.1 h1
  obtain ⟨hx2, hy2, hon2⟩ := wf_aff_iff.1 h2
  have heq := word_eq_of_cast hx1 hx2 hx
  obtain hy | hy := WeierstrassCurve.Affine.Y_eq_of_X_eq ((onCurveXY_iff hc _ _).1 hon1)
    ((onCurveXY_iff hc _ _).1 hon2) hx
  · exact hsame ⟨heq, word_eq_of_cast hy1 hy2 hy⟩
  · exact hinv ⟨heq, (inversePair_iff _ _ _).2 hy⟩

/-- `pt_add` is the sum of the five cases, on well-formed Points (R113). -/
theorem isSumOf_ptAdd (hc : CurveSound c) {P Q : Point} (hP : P.wf c = true) (hQ : Q.wf c = true) :
    IsSumOf c P Q (ptAdd c P Q) := by
  cases P with
  | inf => rfl
  | aff x1 y1 =>
    cases Q with
    | inf => rfl
    | aff x2 y2 =>
      simp only [IsSumOf, ptAdd]
      by_cases hinv : x1 = x2 ∧ (y1.toNat + y2.toNat) % c.p = 0
      · rw [if_pos hinv, if_pos hinv]
      rw [if_neg hinv, if_neg hinv]
      by_cases hsame : x1 = x2 ∧ y1 = y2
      · obtain ⟨rfl, rfl⟩ := hsame
        have hy : (y1.toNat : ZMod c.p) ≠ 0 := fun h => hinv ⟨rfl, by
          rw [← Nat.dvd_iff_mod_eq_zero, ← ZMod.natCast_eq_zero_iff, Nat.cast_add, h, add_zero]⟩
        obtain ⟨x3, y3, hx3, hy3, heq, hX, hY⟩ :=
          thirdPoint_eq hc.pos (tangentSlope c x1.toNat y1.toNat) x1.toNat y1.toNat x1.toNat
        simp only [and_self, if_true]
        exact ⟨_, x3, y3, residue_lt hc.pos _, hx3, hy3, heq, tangentSlope_mul_mod hc _ hy, hX, hY⟩
      · obtain ⟨x3, y3, hx3, hy3, heq, hX, hY⟩ :=
          thirdPoint_eq hc.pos (chordSlope c x1.toNat y1.toNat x2.toNat y2.toNat) x1.toNat y1.toNat x2.toNat
        simp only [if_neg hsame]
        exact ⟨_, x3, y3, residue_lt hc.pos _, hx3, hy3, heq,
          chordSlope_mul_emod hc _ _ (abscissas_ne hc hP hQ hinv hsame), hX, hY⟩

/-- `pt_dbl(P) = pt_add(P, P)` on well-formed Points (R116). -/
theorem ptDbl_eq_ptAdd_self (hc : CurveSound c) {P : Point} (hP : P.wf c = true) : ptDbl c P = ptAdd c P P := by
  obtain ⟨hwd, hgd⟩ := groupPoint_dbl hc hP
  obtain ⟨hwa, hga⟩ := groupPoint_add hc hP hP
  exact groupPoint_injective hc hwd hwa (hgd.trans hga.symm)

/-- The laws hold because the adder and the negator are those of a group (R125). -/
theorem groupLaws (hc : CurveSound c) : GroupLaws c where
  add_inf := fun P _ => by cases P <;> rfl
  add_neg := fun P hP => by
    obtain ⟨hw, hn⟩ := groupPoint_neg hc hP
    obtain ⟨hw', ha⟩ := groupPoint_add hc hP hw
    exact groupPoint_injective hc hw' rfl (by rw [ha, hn, add_neg_cancel, groupPoint_inf])
  add_assoc := fun P Q R hP hQ hR => by
    obtain ⟨hPQ, ePQ⟩ := groupPoint_add hc hP hQ
    obtain ⟨hQR, eQR⟩ := groupPoint_add hc hQ hR
    obtain ⟨hl, el⟩ := groupPoint_add hc hPQ hR
    obtain ⟨hr, er⟩ := groupPoint_add hc hP hQR
    exact groupPoint_injective hc hl hr (by rw [el, er, ePQ, eQR, add_assoc])
  add_comm := fun P Q hP hQ => by
    obtain ⟨hl, el⟩ := groupPoint_add hc hP hQ
    obtain ⟨hr, er⟩ := groupPoint_add hc hQ hP
    exact groupPoint_injective hc hl hr (by rw [el, er, add_comm])

end

end Sys2Proof.Machine

namespace Sys2Proof.Proofs

open Sys2Proof.Machine Sys2Proof.Tests

/-- Settles O58: the equations of the commands; the sum by `isSumOf_ptAdd`, and its laws by Mathlib's group of the curve. -/
theorem pointCommandsOnEveryCurve : Obligations.PointCommandsOnEveryCurve := by
  refine ⟨?pbase, ?equation, ?negInf, ?negAff, ?sum, ?laws⟩
  case pbase =>
    exact fun k pd s => ⟨rfl, (wellFormedOf_iff (parameters_p_pos k) _).2 (parameters_basePoint_wf k)⟩
  case equation =>
    refine fun k pd rd rs1 rs2 s => ⟨fun hx hy => ⟨?_, oncurve_of_lt k hx hy rd⟩,
      fun h => ⟨pset_of_le k h pd, oncurve_of_le k h rd⟩⟩
    split_ifs with hon
    · exact pset_of_onCurve k hx hy pd hon
    · exact pset_of_not_onCurve k hx hy pd hon
  case negInf =>
    intro k pd ps1 s hP
    simp only [commandMeaning, pnegCommand, pointOperand, State.point, hP, ptNeg]
    rfl
  case negAff =>
    intro k pd ps1 s x y hP hwf
    obtain ⟨y', heq, hy', hwf'⟩ := ptNeg_aff k hwf
    refine ⟨y', hy', hwf', ?_⟩
    simp only [commandMeaning, pnegCommand, pointOperand, State.point, hP, heq]
    rfl
  case sum =>
    intro k pd ps1 ps2 s hns h1 h2
    have := parameters_p_prime k
    have hc := parameters_curve_sound k hns
    have hwf := wellFormedOf_iff (parameters_p_pos k)
    rw [hwf] at h1 h2
    refine ⟨⟨_, isSumOf_ptAdd hc h1 h2, (hwf _).2 (groupPoint_add hc h1 h2).1, rfl⟩, ?_⟩
    simp only [commandMeaning, pdblCommand, paddCommand, pointOperand, State.point, ptDbl_eq_ptAdd_self hc h1]
  case laws =>
    intro k hns
    have := parameters_p_prime k
    exact groupLaws (parameters_curve_sound k hns)

end Sys2Proof.Proofs
end

section
/-! The codec for all parameters: which byte strings `DECODE` takes and the point each stands for (R164, R165), and that it
undoes `ENCODE` (R166). Settles O60. -/

namespace Sys2Proof.Machine

open Sys2Proof.Spec Sys2Proof.Tests

/-! Byte strings in a buffer (R12) -/

theorem memRead_add (m : Memory) : ∀ (a b off : Nat), memRead m off (a + b) = memRead m off a ++ memRead m (off + a) b
  | 0, b, off => by rw [Nat.zero_add]; rfl
  | a + 1, b, off => by
    rw [Nat.succ_add, memRead, memRead, memRead_add m a b (off + 1), List.cons_append, Nat.add_right_comm off 1 a,
      Nat.add_assoc off a 1]

/-- `OS2IP` of a part of a buffer, as a sum (R10). -/
theorem os2ip_memRead (m : Memory) (off : Nat) : ∀ k : Nat,
    os2ip (memRead m off k) = ∑ i ∈ Finset.range k, (Memory.read m (off + i)).toNat * 256 ^ (k - 1 - i)
  | 0 => rfl
  | k + 1 => by
    rw [memRead_add, memRead, memRead, os2ip_append_singleton, os2ip_memRead m off k, Finset.sum_range_succ,
      Finset.sum_mul, Nat.add_sub_cancel, Nat.sub_self, pow_zero, mul_one, Nat.add_left_inj]
    refine Finset.sum_congr rfl fun i hi => ?_
    rw [Finset.mem_range] at hi
    rw [mul_assoc, ← pow_succ, show k - 1 - i + 1 = k - i by omega]

theorem os2ip_memRead_32 (m : Memory) (off : Nat) : os2ip (memRead m off 32) = integerAt m off :=
  os2ip_memRead m off 32

/-! The checks of a decoded pair (R164) -/

section
variable {c : Curve}

theorem checkedPoint_of_mem {x y : Nat} (hx : x < c.p) (hy : y < c.p) (hon : OnCurveOf c x y) :
    checkedPoint c x y = .ok (pointOf x y) := by
  rw [checkedPoint, if_neg (not_or.2 ⟨not_le.2 hx, not_le.2 hy⟩),
    if_pos ((onCurveXY_iff_onCurveOf (by omega) x y).2 hon)]

theorem checkedPoint_of_not_mem (hp : 0 < c.p) {x y : Nat} (h : ¬(x < c.p ∧ y < c.p ∧ OnCurveOf c x y)) :
    checkedPoint c x y = .error .invalidEncoding := by
  unfold checkedPoint
  split_ifs with hr hon
  · rfl
  · obtain ⟨hx, hy⟩ := not_or.1 hr
    exact absurd ⟨not_le.1 hx, not_le.1 hy, (onCurveXY_iff_onCurveOf hp x y).1 hon⟩ h
  · rfl

/-- A pair that passes the checks is a well-formed Point (R23 (e)). -/
theorem checkedPoint_wf (hp : 0 < c.p) (hw : c.p < 2 ^ 256) {x y : Nat} {P : Point} (h : checkedPoint c x y = .ok P) :
    P.wf c = true := by
  by_cases hmem : x < c.p ∧ y < c.p ∧ OnCurveOf c x y
  · obtain ⟨hx, hy, hon⟩ := hmem
    rw [checkedPoint_of_mem hx hy hon] at h
    cases h
    rw [← wellFormedOf_iff hp]
    refine .inr ⟨_, _, rfl, ?_⟩
    rw [BitVec.toNat_ofNat, BitVec.toNat_ofNat, Nat.mod_eq_of_lt (hx.trans hw), Nat.mod_eq_of_lt (hy.trans hw)]
    exact ⟨hx, hy, hon⟩
  · rw [checkedPoint_of_not_mem hp hmem] at h
    cases h

/-! The compressed form: the root of the right parity (R164) -/

/-- The equation's right-hand side is the residue whose root the decoder takes. -/
theorem residue_rhs_of_onCurveOf (hp : 0 < c.p) {x y : Nat} (h : OnCurveOf c x y) :
    residue c ((x : Int) * x * x + c.a * x + c.b) = y * y % c.p := by
  rw [h, ← residue_natCast hp]
  push_cast
  rfl

/-- The decoder's choice between the two roots: the one of the parity asked for. -/
abbrev rootOfParity (c : Curve) (t parity : Nat) : Nat := if t % 2 = parity then t else c.p - t

theorem rootOfParity_mod_two (hodd : c.p % 2 = 1) {t parity : Nat} (ht : t < c.p) (hpar : parity < 2) :
    rootOfParity c t parity % 2 = parity := by
  unfold rootOfParity
  split_ifs <;> omega

variable [hprime : Fact c.p.Prime]

/-- Two roots of one number are equal or negatives of each other, and `p` is odd, so their parity tells them apart. -/
theorem rootOfParity_eq (hodd : c.p % 2 = 1) {t y : Nat} (ht : t < c.p) (hy : y < c.p)
    (h : t * t % c.p = y * y % c.p) : rootOfParity c t (y % 2) = y := by
  have hsq : (t : ZMod c.p) * t = y * y := by
    rw [← Nat.cast_mul, ← Nat.cast_mul, ZMod.natCast_eq_natCast_iff', h]
  obtain hty | hty := mul_self_eq_mul_self_iff.1 hsq
  · rw [(cast_eq_cast_of_lt ht hy).1 hty]
    exact if_pos rfl
  · have hdvd : c.p ∣ t + y := by
      rw [← ZMod.natCast_eq_zero_iff, Nat.cast_add, hty, neg_add_cancel]
    have hsum : t + y = 0 ∨ t + y = c.p := by
      obtain ⟨j, hj⟩ := hdvd
      have hj2 : j < 2 := by
        by_contra hge
        have := Nat.mul_le_mul_left c.p (show 2 ≤ j by omega)
        omega
      interval_cases j <;> omega
    unfold rootOfParity
    split_ifs <;> omega

theorem decodeCompressed_of_mem (h4 : c.p % 4 = 3) {x y : Nat} (hx : x < c.p) (hy : y < c.p) (hon : OnCurveOf c x y) :
    decodeCompressed c x (y % 2) = .ok (pointOf x y) := by
  have hv : y * y % c.p < c.p := Nat.mod_lt _ (by omega)
  have heq := rootOfParity_eq (by omega) (Nat.mod_lt _ (by omega)) hy (sq_pow_mod h4 hv ⟨y, rfl⟩)
  simp only [decodeCompressed, if_neg (not_le.2 hx), residue_rhs_of_onCurveOf (by omega) hon,
    modularSqrt_of_square h4 hv ⟨y, rfl⟩]
  change checkedPoint c x (rootOfParity c _ (y % 2)) = _
  rw [heq, checkedPoint_of_mem hx hy hon]

theorem decodeCompressed_of_not_mem (h4 : c.p % 4 = 3) {x parity : Nat} (hpar : parity < 2)
    (h : ¬∃ y, y % 2 = parity ∧ x < c.p ∧ y < c.p ∧ OnCurveOf c x y) :
    decodeCompressed c x parity = .error .invalidEncoding := by
  have hp : 0 < c.p := by omega
  by_cases hx : x < c.p
  · simp only [decodeCompressed, if_neg (not_le.2 hx)]
    have hv := residue_lt hp ((x : Int) * x * x + c.a * x + c.b)
    by_cases hsq : ∃ u, u * u % c.p = residue c ((x : Int) * x * x + c.a * x + c.b)
    · rw [modularSqrt_of_square h4 hv hsq]
      refine checkedPoint_of_not_mem hp fun ⟨_, hy, hon⟩ => h ⟨_, ?_, hx, hy, hon⟩
      exact rootOfParity_mod_two (by omega) (Nat.mod_lt _ hp) hpar
    · rw [modularSqrt_of_not_square (by omega) hv hsq]
  · rw [decodeCompressed, if_pos (not_lt.1 hx)]

end

/-! The dispatch on length and leading byte (R164) -/

theorem decodePoint_65 (c : Curve) (lead : Byte) {body : List Byte} (h : body.length = 64) :
    decodePoint c (lead :: body)
      = if lead = 0x04 then checkedPoint c (os2ip (body.take 32)) (os2ip (body.drop 32)) else .error .invalidEncoding := by
  simp [decodePoint, decodeUncompressed, h]

theorem decodePoint_33 (c : Curve) (lead : Byte) {body : List Byte} (h : body.length = 32) :
    decodePoint c (lead :: body)
      = if lead = 0x02 ∨ lead = 0x03 then decodeCompressed c (os2ip body) (lead.toNat - 2)
        else .error .invalidEncoding := by
  simp [decodePoint, h]

/-- What a string decodes to is well-formed (R23 (e)). -/
theorem decodePoint_wf (k : Parameters) {l : List Byte} {P : Point} (h : decodePoint k.curve l = .ok P) :
    P.wf k.curve = true := by
  have hchecked : ∀ x y, checkedPoint k.curve x y = .ok P → P.wf k.curve = true := fun _ _ =>
    checkedPoint_wf (parameters_p_pos k) k.admissible.fits.1
  unfold decodePoint decodeUncompressed decodeCompressed at h
  split at h
  · cases h
  · split_ifs at h
    · exact hchecked _ _ h
    · split at h
      · cases h
      · exact hchecked _ _ h

/-- `decode(encode(P, c)) = P` (R166). -/
theorem decodePoint_encodePoint (k : Parameters) {x y : Word256} (hwf : WellFormedOf k.curve (.aff x y))
    (compressed : Bool) : ∃ bytes, encodePoint (.aff x y) compressed = .ok bytes ∧
      decodePoint k.curve bytes = .ok (.aff x y) := by
  have := parameters_p_prime k
  obtain ⟨⟨⟩⟩ | ⟨_, _, ⟨⟩, hx, hy, hon⟩ := hwf
  have hxy : pointOf x.toNat y.toNat = .aff x y := by simp
  cases compressed with
  | false =>
    refine ⟨_, rfl, ?_⟩
    rw [decodePoint_65 _ _ (by simp), if_pos (by decide), List.take_left' (i2osp32_length x),
      List.drop_left' (i2osp32_length x), os2ip_i2osp32, os2ip_i2osp32, checkedPoint_of_mem hx hy hon, hxy]
  | true =>
    have hlead : (byteOf (2 + y.toNat % 2) = 0x02 ∨ byteOf (2 + y.toNat % 2) = 0x03) ∧
        (byteOf (2 + y.toNat % 2)).toNat - 2 = y.toNat % 2 := by
      obtain h | h := Nat.mod_two_eq_zero_or_one y.toNat <;> rw [h] <;> decide
    refine ⟨_, rfl, ?_⟩
    rw [decodePoint_33 _ _ (i2osp32_length x), if_pos hlead.1, hlead.2, os2ip_i2osp32,
      decodeCompressed_of_mem k.admissible.p_mod_four hx hy hon, hxy]

/-! The commands `DECODE` and `ENCODE` (R161, R165) -/

section
variable (k : Parameters) {s : State}

theorem decode_of_length (pd : PIdx) (h33 : s.encLen.toNat ≠ 33) (h65 : s.encLen.toNat ≠ 65) :
    commandMeaning k (.decode pd) s = .next (fails s .invalidEncoding) := by
  simp only [commandMeaning, decodeCommand, if_pos (And.intro h33 h65)]
  exact endCommand_fails rfl

theorem decode_of_ok (pd : PIdx) {P : Point} (hlen : s.encLen.toNat = 33 ∨ s.encLen.toNat = 65)
    (h : decodePoint k.curve (memRead s.enc 0 s.encLen.toNat) = .ok P) :
    commandMeaning k (.decode pd) s = .next (writesThePoint s pd P) := by
  have hlen' : ¬(s.encLen.toNat ≠ 33 ∧ s.encLen.toNat ≠ 65) := by omega
  simp only [commandMeaning, decodeCommand, if_neg hlen', h, endCommand_ok]
  rfl

theorem decode_of_error (pd : PIdx) (hlen : s.encLen.toNat = 33 ∨ s.encLen.toNat = 65)
    (h : decodePoint k.curve (memRead s.enc 0 s.encLen.toNat) = .error .invalidEncoding) :
    commandMeaning k (.decode pd) s = .next (fails s .invalidEncoding) := by
  have hlen' : ¬(s.encLen.toNat ≠ 33 ∧ s.encLen.toNat ≠ 65) := by omega
  simp only [commandMeaning, decodeCommand, if_neg hlen', h]
  exact endCommand_fails rfl

theorem encode_of_ok (ps1 : PIdx) (compressed : Bool) {bytes : List Byte}
    (h : encodePoint s.pt[ps1] compressed = .ok bytes) :
    commandMeaning k (.encode ps1 compressed) s = .next (s.deliver .enc bytes).endOk := by
  simp only [commandMeaning, execEncode, pointOperand, State.point, h, endCommand_ok]

end

/-- The uncompressed string in `ENC` (R164, first arm). -/
theorem decodePoint_memRead_65 (c : Curve) (m : Memory) : decodePoint c (memRead m 0 65)
    = if Memory.read m 0 = 0x04 then checkedPoint c (integerAt m 1) (integerAt m 33) else .error .invalidEncoding := by
  have hsplit : memRead m 1 64 = memRead m 1 32 ++ memRead m 33 32 := memRead_add m 32 32 1
  rw [memRead, decodePoint_65 _ _ (memRead_length m 64 1), hsplit, List.take_left' (memRead_length m 32 1),
    List.drop_left' (memRead_length m 32 1), os2ip_memRead_32, os2ip_memRead_32]

/-- The compressed string in `ENC` (R164, second arm). -/
theorem decodePoint_memRead_33 (c : Curve) (m : Memory) : decodePoint c (memRead m 0 33)
    = if Memory.read m 0 = 0x02 ∨ Memory.read m 0 = 0x03
      then decodeCompressed c (integerAt m 1) ((Memory.read m 0).toNat - 2) else .error .invalidEncoding := by
  rw [memRead, decodePoint_33 _ _ (memRead_length m 32 1), os2ip_memRead_32]

/-- The leading byte asks for the parity of `y` (R164). -/
abbrev AsksForParity (lead : Byte) (y : Nat) : Prop := lead = 0x02 ∧ y % 2 = 0 ∨ lead = 0x03 ∧ y % 2 = 1

theorem asksForParity_iff {lead : Byte} {y : Nat} :
    AsksForParity lead y ↔ (lead = 0x02 ∨ lead = 0x03) ∧ y % 2 = lead.toNat - 2 := by
  constructor
  · rintro (⟨rfl, h⟩ | ⟨rfl, h⟩)
    · exact ⟨.inl rfl, h⟩
    · exact ⟨.inr rfl, h⟩
  · rintro ⟨rfl | rfl, h⟩
    · exact .inl ⟨rfl, h⟩
    · exact .inr ⟨rfl, h⟩

section
variable (k : Parameters) (m : Memory)

theorem decodePoint_memRead_33_of_mem {y : Nat} (hlead : AsksForParity (Memory.read m 0) y)
    (hx : integerAt m 1 < k.curve.p) (hy : y < k.curve.p) (hon : OnCurveOf k.curve (integerAt m 1) y) :
    decodePoint k.curve (memRead m 0 33) = .ok (pointOf (integerAt m 1) y) := by
  have := parameters_p_prime k
  obtain ⟨hlead, hpar⟩ := asksForParity_iff.1 hlead
  rw [decodePoint_memRead_33, if_pos hlead, ← hpar,
    decodeCompressed_of_mem k.admissible.p_mod_four hx hy hon]

theorem decodePoint_memRead_33_of_not_mem (h : ¬∃ y, AsksForParity (Memory.read m 0) y ∧ integerAt m 1 < k.curve.p ∧
      y < k.curve.p ∧ OnCurveOf k.curve (integerAt m 1) y) :
    decodePoint k.curve (memRead m 0 33) = .error .invalidEncoding := by
  have := parameters_p_prime k
  rw [decodePoint_memRead_33]
  split_ifs with hlead
  · refine decodeCompressed_of_not_mem k.admissible.p_mod_four ?_ fun ⟨y, hpar, hmem⟩ =>
      h ⟨y, asksForParity_iff.2 ⟨hlead, hpar⟩, hmem⟩
    obtain hlead | hlead := hlead <;> rw [hlead] <;> decide
  · rfl

end

/-- `ENCODE` followed by `DECODE` gives the point back (R166). -/
theorem decode_encode (k : Parameters) (ps pd : PIdx) (compressed : Bool) {s : State} {x y : Word256}
    (hP : s.pt[ps] = .aff x y) (hwf : WellFormedOf k.curve (.aff x y)) (hm : s.enc.wf) :
    ∃ t, commandMeaning k (.encode ps compressed) s = .next t ∧
      commandMeaning k (.decode pd) t = .next (writesThePoint t pd (.aff x y)) := by
  obtain ⟨bytes, henc, hdec⟩ := decodePoint_encodePoint k hwf compressed
  have hlen := encodePoint_length henc
  refine ⟨_, encode_of_ok k ps compressed (by rw [hP, henc]), ?_⟩
  have hencLen : ((s.deliver .enc bytes).endOk.encLen).toNat = bytes.length := by
    show (BitVec.ofNat 32 bytes.length).toNat = _
    rw [BitVec.toNat_ofNat, hlen]
    split_ifs <;> rfl
  refine decode_of_ok k pd ?_ ?_
  · rw [hencLen, hlen]
    split_ifs
    · exact .inl rfl
    · exact .inr rfl
  · rw [hencLen]
    show decodePoint k.curve (memRead (memWrite s.enc 0 bytes) 0 bytes.length) = _
    rw [memRead_memWrite hm, hdec]

end Sys2Proof.Machine

namespace Sys2Proof.Proofs

open Sys2Proof.Machine

/-- Settles O60: the decoder takes the root of the parity the leading byte asks for (`rootOfParity_eq`), which is the ordinate
that `ENCODE` came from. -/
theorem codecOnEveryCurve : Obligations.CodecOnEveryCurve := by
  refine ⟨fun k pd s => ⟨decode_of_length k pd, fun h65 => ?uncompressed, fun h33 => ⟨?taken, ?refused⟩⟩, ?roundTrip⟩
  case uncompressed =>
    have hdec := decodePoint_memRead_65 k.curve s.enc
    split_ifs with h
    · obtain ⟨hlead, hx, hy, hon⟩ := h
      rw [if_pos hlead, checkedPoint_of_mem hx hy hon] at hdec
      exact decode_of_ok k pd (.inr h65) (by rw [h65, hdec])
    · refine decode_of_error k pd (.inr h65) ?_
      rw [h65, hdec]
      split_ifs with hlead
      · exact checkedPoint_of_not_mem (parameters_p_pos k) fun hmem => h ⟨hlead, hmem⟩
      · rfl
  case taken =>
    intro y hlead hx hy hon
    exact decode_of_ok k pd (.inl h33) (by rw [h33, decodePoint_memRead_33_of_mem k s.enc hlead hx hy hon])
  case refused =>
    intro h
    exact decode_of_error k pd (.inl h33) (by rw [h33, decodePoint_memRead_33_of_not_mem k s.enc h])
  case roundTrip =>
    intro k ps pd c s hwf hne hm
    cases hP : s.pt[ps] with
    | inf => exact absurd hP hne
    | aff x y =>
      obtain ⟨t, ht, hu⟩ := decode_encode k ps pd c hP (hP ▸ hwf) hm
      exact ⟨t, _, ht, hu, rfl, by simp⟩

end Sys2Proof.Proofs
end

section
/-! O49. The point registers stay well-formed: a command leaves them, or writes a well-formed Point to one of them; a host
access leaves them, or resets them. -/

namespace Sys2Proof.Machine

open Sys2Proof.Spec Sys2Proof.Tests

/-! The invariant speaks of the point registers only -/

theorem State.PointsWellFormed.of_pt_eq {c : Curve} {s t : State} (h : s.PointsWellFormed c) (hpt : t.pt = s.pt) :
    t.PointsWellFormed c := fun i => by
  rw [State.point, hpt]
  exact h i

theorem State.PointsWellFormed.setPoint {c : Curve} {s : State} (h : s.PointsWellFormed c) (pd : PIdx) {P : Point}
    (hP : P.wf c = true) : (s.setPoint pd P).PointsWellFormed c := fun i => by
  by_cases hi : i = pd
  · subst hi; rw [State.point_setPoint_self]; exact hP
  · rw [State.point_setPoint_of_ne _ _ hi]; exact h i

/-! What a command writes to the point registers -/

/-- The point registers after a step: as before, or one of them holding a new well-formed Point. -/
inductive PointsKept (c : Curve) (s t : State) : Prop where
  | same (hpt : t.pt = s.pt) : PointsKept c s t
  | wrote (pd : PIdx) (P : Point) (hP : P.wf c = true) (hpt : t.pt = s.pt.set pd P) : PointsKept c s t

theorem PointsKept.pointsWellFormed {c : Curve} {s t : State} (hk : PointsKept c s t) (h : s.PointsWellFormed c) :
    t.PointsWellFormed c := by
  cases hk with
  | same hpt => exact h.of_pt_eq hpt
  | wrote pd P hP hpt => exact (h.setPoint pd hP).of_pt_eq hpt

/-- A command without a point destination leaves the point registers (R22). -/
theorem Ending.pt_eq {i : Instr} {s t : State} (he : Ending i s t) (hi : writesPoint i = none) : t.pt = s.pt := by
  cases he with
  | failed | keygenFailed | wroteReg | stored => simp
  | wrotePoint pd P hp => rw [hi] at hp; cases hp
  | wroteKeys rd pd d P hk => rw [hk] at hi; cases hi

section
variable {k : Parameters} {s t : State} {pd : PIdx}

/-- `PSET` writes a pair that satisfies the equation, or nothing (R23 (b)). -/
theorem pset_pointsKept {rs1 rs2 : RIdx} (ht : commandMeaning k (.pset pd rs1 rs2) s = .next t) :
    PointsKept k.curve s t := by
  by_cases hr : k.curve.p ≤ s.r[rs1].toNat ∨ k.curve.p ≤ s.r[rs2].toNat
  · rw [pset_of_le k hr] at ht
    cases ht
    exact .same rfl
  · obtain ⟨hx, hy⟩ := not_or.1 hr
    rw [not_le] at hx hy
    by_cases hon : OnCurveOf k.curve s.r[rs1].toNat s.r[rs2].toNat
    · rw [pset_of_onCurve k hx hy pd hon] at ht
      cases ht
      exact .wrote pd _ ((wellFormedOf_iff (parameters_p_pos k) _).1 (.inr ⟨_, _, rfl, hx, hy, hon⟩)) rfl
    · rw [pset_of_not_onCurve k hx hy pd hon] at ht
      cases ht
      exact .same rfl

/-- `DECODE` writes the point the string stands for, or nothing (R23 (e)). -/
theorem decode_pointsKept (ht : commandMeaning k (.decode pd) s = .next t) : PointsKept k.curve s t := by
  obtain ⟨u, hu, rfl⟩ | ⟨e, -, rfl⟩ := endCommand_cases ht
  · split_ifs at hu
    split at hu
    · cases hu
    next P hP =>
      cases hu
      exact .wrote pd P (decodePoint_wf k hP) rfl
  · exact .same rfl

/-- `KEYGEN` writes a multiple of the base point, or nothing (R23 (d)). -/
theorem keygen_pointsKept (hc : CurveSound k.curve) {rd : RIdx} (ht : commandMeaning k (.keygen rd pd) s = .next t) :
    PointsKept k.curve s t := by
  have := parameters_p_prime k
  obtain ⟨u, hu, rfl⟩ | ⟨e, -, rfl⟩ := endCommand_cases ht
  · unfold keygenResult at hu
    dsimp only at hu
    split_ifs at hu
    cases hu
    exact .wrote pd _ (scalarMult_group hc _ (parameters_basePoint_wf k)).1 rfl
  · exact .same rfl

end

/-- Every command leaves the point registers, or writes a well-formed Point to one of them (R23). -/
theorem commandMeaning_pointsKept {k : Parameters} (hc : CurveSound k.curve) {i : Instr} {s t : State}
    (h : s.PointsWellFormed k.curve) (ht : commandMeaning k i s = .next t) : PointsKept k.curve s t := by
  have := parameters_p_prime k
  cases i with
  | pset pd rs1 rs2 => exact pset_pointsKept ht
  | decode pd => exact decode_pointsKept ht
  | keygen rd pd => exact keygen_pointsKept hc ht
  | pinf pd => cases ht; exact .wrote pd .inf rfl rfl
  | pbase pd => cases ht; exact .wrote pd _ (parameters_basePoint_wf k) rfl
  | pneg pd ps1 => cases ht; exact .wrote pd _ (ptNeg_wf k (h ps1)) rfl
  | padd pd ps1 ps2 => cases ht; exact .wrote pd _ (groupPoint_add hc (h ps1) (h ps2)).1 rfl
  | pdbl pd ps1 => cases ht; exact .wrote pd _ (groupPoint_dbl hc (h ps1)).1 rfl
  | smul pd rs1 ps2 => cases ht; exact .wrote pd _ (scalarMult_group hc _ (h ps2)).1 rfl
  | fadd | fsub | fmul | finv | oncurve | ecdh | encode | fsqrt | hkdf =>
    exact .same ((commandMeaning_cases ht).pt_eq rfl)

/-! Every step -/

theorem hostReset_pointsWellFormed (c : Curve) (s : State) : (hostReset s).PointsWellFormed c := fun i => by
  simp [State.point, hostReset, State.reset, Point.wf]

theorem HostEffect.pointsWellFormed {k : Parameters} {s t : State} (he : HostEffect k s t)
    (h : s.PointsWellFormed k.curve) : t.PointsWellFormed k.curve := by
  cases he with
  | ignored => exact h
  | answered a => exact h.of_pt_eq rfl
  | wroteReg t hf => exact h.of_pt_eq (by rw [hf])
  | wroteByte b off v => exact h.of_pt_eq (State.setBuf_pt _ _ _)
  | reset => exact hostReset_pointsWellFormed _ s

theorem advance_pointsWellFormed {k : Parameters} (hc : CurveSound k.curve) {s t : State}
    (ht : advance k s = .next t) (h : s.PointsWellFormed k.curve) : t.PointsWellFormed k.curve := by
  obtain rfl | ⟨rest, he⟩ | ⟨i, hi⟩ | rfl := advance_effect ht
  · exact h
  · exact he.pointsWellFormed (h.of_pt_eq rfl)
  · exact (commandMeaning_pointsKept hc h hi).pointsWellFormed h
  · exact h.of_pt_eq rfl

/-- The invariant in the spec's words (R23). -/
theorem pointsWellFormed_iff (k : Parameters) (s : State) :
    s.PointsWellFormed k.curve ↔ ∀ i : PIdx, WellFormedOf k.curve s.pt[i] :=
  forall_congr' fun _ => (wellFormedOf_iff (parameters_p_pos k) _).symm

end Sys2Proof.Machine

namespace Sys2Proof.Proofs

open Sys2Proof.Machine Sys2Proof.Spec Sys2Proof.Tests

/-- Settles O49: every command that writes a point register writes a well-formed Point (`commandMeaning_pointsKept`), by the
group of the curve; `step` is the case at the defaults, whose curve has no singular point. -/
theorem pointRegistersStayWellFormed : Obligations.PointRegistersStayWellFormed := by
  have key : ∀ (k : Parameters) (s t : State), NonSingular k.curve → (∀ i : PIdx, WellFormedOf k.curve s.pt[i]) →
      advance k s = .next t → ∀ i : PIdx, WellFormedOf k.curve t.pt[i] := fun k s t hns h ht =>
    (pointsWellFormed_iff k t).1
      (advance_pointsWellFormed (parameters_curve_sound k hns) ht ((pointsWellFormed_iff k s).2 h))
  exact ⟨fun s t => key Config.parameters s t witness_prime_order.1, key⟩

end Sys2Proof.Proofs
end

section
/-! O44, O45, O46, O52. What every command leaves and raises, from the endings of a command (`Ending`). -/

namespace Sys2Proof.Machine

open Sys2Proof.Spec

/-- `InternalInvariant` is the one fatal error (R210). -/
theorem ErrorKind.isFatal_eq_decide (e : ErrorKind) : e.isFatal = decide (some e = some ErrorKind.internalInvariant) := by
  cases e <;> rfl

/-- An error is precise, whatever the count of draws (R205, R206). -/
theorem raise_leavesAFailedState (s : State) (e : ErrorKind) (d : Nat) :
    LeavesAFailedState s ({ s with draws := d }.raise e) := by
  intro _
  refine ⟨nofun, ?_⟩
  simp only [State.raise, ErrorKind.isFatal_eq_decide]

theorem endOk_leavesAFailedState (s u : State) : LeavesAFailedState s u.endOk := nofun

theorem Ending.leavesAFailedState {i : Instr} {s t : State} (he : Ending i s t) : LeavesAFailedState s t := by
  cases he with
  | failed e => exact raise_leavesAFailedState s e s.draws
  | keygenFailed => exact raise_leavesAFailedState s _ (s.draws + 1)
  | wroteReg | wrotePoint | wroteKeys | stored => exact endOk_leavesAFailedState s _

theorem raise_raisesOnlyItsErrors {i : Instr} {e : ErrorKind} (he : e ∈ errorsOf i) (s : State) :
    RaisesOnlyItsErrors i (s.raise e) :=
  ⟨fun _ h => Option.some.inj h ▸ he, ⟨nofun, nofun⟩, rfl⟩

theorem endOk_raisesOnlyItsErrors (i : Instr) (u : State) : RaisesOnlyItsErrors i u.endOk :=
  ⟨nofun, ⟨fun _ => rfl, fun _ => rfl⟩, rfl⟩

theorem Ending.raisesOnlyItsErrors {i : Instr} {s t : State} (he : Ending i s t) : RaisesOnlyItsErrors i t := by
  cases he with
  | failed e he => exact raise_raisesOnlyItsErrors he s
  | keygenFailed rd pd hi => exact raise_raisesOnlyItsErrors (by rw [hi]; exact List.mem_singleton_self _) _
  | wroteReg | wrotePoint | wroteKeys | stored => exact endOk_raisesOnlyItsErrors i _

/-! The frame of the registers -/

/-- A register other than the one set keeps its value. -/
theorem getElem_set_of_ne {α : Type} {n : Nat} (v : Vector α n) {i j : Fin n} (x : α) (h : i ≠ j) :
    (v.set i x)[j] = v[j] :=
  Vector.getElem_set_ne _ _ fun e => h (Fin.ext e)

theorem Ending.keepsOtherRegisters {i : Instr} {s t : State} (he : Ending i s t) : KeepsOtherRegisters i s t := by
  cases he with
  | failed => exact ⟨fun _ _ => rfl, fun _ _ => rfl, rfl, rfl, rfl, .inr rfl⟩
  | keygenFailed rd pd hi => exact ⟨fun _ _ => rfl, fun _ _ => rfl, rfl, rfl, rfl, .inl ⟨rd, pd, hi⟩⟩
  | wroteReg rd v hr =>
    exact ⟨fun j hj => getElem_set_of_ne _ _ fun h => hj (h ▸ hr), fun _ _ => rfl, rfl, rfl, rfl, .inr rfl⟩
  | wrotePoint pd P hp =>
    exact ⟨fun _ _ => rfl, fun j hj => getElem_set_of_ne _ _ fun h => hj (h ▸ hp), rfl, rfl, rfl, .inr rfl⟩
  | wroteKeys rd pd d P hi =>
    subst hi
    exact ⟨fun j hj => getElem_set_of_ne _ _ fun h => hj (h ▸ rfl),
      fun j hj => getElem_set_of_ne _ _ fun h => hj (h ▸ rfl), rfl, rfl, rfl, .inl ⟨rd, pd, rfl⟩⟩
  | stored b bytes =>
    refine ⟨fun _ _ => ?_, fun _ _ => ?_, ?_, ?_, ?_, .inr ?_⟩ <;> simp

/-! `ERR` and `STATUS.ERROR` agree (R31) -/

/-- `ERR` reads 0 for no error only: no kind has code 0 (R201). -/
theorem State.errWord_ne_zero_iff (s : State) : s.errWord ≠ 0 ↔ s.err ≠ none := by
  unfold State.errWord
  split
  next h => simp [h]
  next e h => rw [h]; exact ⟨nofun, fun _ => by cases e <;> decide⟩

/-- The invariant speaks of `STATUS.ERROR` and `ERR.CODE` only. -/
theorem State.ErrorCoherent.of_eq {s t : State} (h : s.ErrorCoherent) (herror : t.error = s.error)
    (herr : t.err = s.err) : t.ErrorCoherent := by
  rw [State.ErrorCoherent, State.errWord_ne_zero_iff] at h ⊢
  rwa [herror, herr]

theorem raise_errorCoherent (s : State) (e : ErrorKind) : (s.raise e).ErrorCoherent :=
  (State.errWord_ne_zero_iff _).trans ⟨fun _ => rfl, fun _ => nofun⟩

theorem endOk_errorCoherent (s : State) : s.endOk.ErrorCoherent :=
  (State.errWord_ne_zero_iff _).trans ⟨fun h => absurd rfl h, nofun⟩

theorem Ending.errorCoherent {i : Instr} {s t : State} (he : Ending i s t) : t.ErrorCoherent := by
  cases he with
  | failed | keygenFailed => exact raise_errorCoherent _ _
  | wroteReg | wrotePoint | wroteKeys | stored => exact endOk_errorCoherent _

theorem hostReset_errorCoherent (s : State) : (hostReset s).ErrorCoherent :=
  (State.errWord_ne_zero_iff _).trans ⟨fun h => absurd rfl h, nofun⟩

theorem HostEffect.errorCoherent {k : Parameters} {s t : State} (he : HostEffect k s t) (h : s.ErrorCoherent) :
    t.ErrorCoherent := by
  cases he with
  | ignored => exact h
  | answered a => exact h.of_eq rfl rfl
  | wroteReg t hf => exact h.of_eq (by rw [hf]) (by rw [hf])
  | wroteByte => exact h.of_eq (State.setBuf_error _ _ _) (State.setBuf_err _ _ _)
  | reset => exact hostReset_errorCoherent s

theorem advance_errorCoherent {k : Parameters} {s t : State} (ht : advance k s = .next t) (h : s.ErrorCoherent) :
    t.ErrorCoherent := by
  obtain rfl | ⟨rest, he⟩ | ⟨i, hi⟩ | rfl := advance_effect ht
  · exact h
  · exact he.errorCoherent (h.of_eq rfl rfl)
  · exact (commandMeaning_cases hi).errorCoherent
  · exact raise_errorCoherent s _

end Sys2Proof.Machine

namespace Sys2Proof.Proofs

open Sys2Proof.Machine

/-- Settles O44: an ending with `STATUS.ERROR` set is `State.raise`, of the state before or of that with one more draw. -/
theorem errorsArePrecise : Obligations.ErrorsArePrecise :=
  ⟨fun _ _ _ h => (exec_cases h).leavesAFailedState, fun _ _ _ _ h => (commandMeaning_cases h).leavesAFailedState⟩

/-- Settles O45: every ending with an error names one of the command's errors. -/
theorem commandsRaiseOnlyTheirErrors : Obligations.CommandsRaiseOnlyTheirErrors :=
  ⟨fun _ _ _ h => (exec_cases h).raisesOnlyItsErrors, fun _ _ _ _ h => (commandMeaning_cases h).raisesOnlyItsErrors⟩

/-- Settles O46: every ending sets at most the destinations. -/
theorem onlyTheDestinationRegistersChange : Obligations.OnlyTheDestinationRegistersChange :=
  ⟨fun _ _ _ h => (exec_cases h).keepsOtherRegisters, fun _ _ _ _ h => (commandMeaning_cases h).keepsOtherRegisters⟩

/-- Settles O52: both ways to end a command set the bit and the code together, and the host changes neither but by reset. -/
theorem errorBitAndCodeAgree : Obligations.ErrorBitAndCodeAgree :=
  ⟨fun _ _ h ht => advance_errorCoherent (k := Config.parameters) ht h, fun _ _ _ h ht => advance_errorCoherent ht h⟩

end Sys2Proof.Proofs
end

section
/-! The select map read backwards (R26): the select number of each register, and with it every read and write of the host
by register. -/

namespace Sys2Proof.Machine

open Sys2Proof.Spec

/-- The select number of a register (R26). -/
def HostReg.select : HostReg → BitVec 8
  | .id => 0x00
  | .cmd => 0x01
  | .status => 0x02
  | .err => 0x03
  | .encLen => 0x04
  | .ikmLen => 0x05
  | .saltLen => 0x06
  | .infoLen => 0x07
  | .okmReq => 0x08
  | .okmLen => 0x09
  | .constP => 0x10
  | .constA => 0x11
  | .constB => 0x12
  | .constGx => 0x13
  | .constGy => 0x14
  | .constN => 0x15
  | .r i => BitVec.ofNat 8 (0x20 + i)
  | .ptInf i => BitVec.ofNat 8 (0x40 + 4 * i)
  | .ptX i => BitVec.ofNat 8 (0x41 + 4 * i)
  | .ptY i => BitVec.ofNat 8 (0x42 + 4 * i)

/-- The map takes a register's number to the register. -/
@[simp] theorem HostReg.ofSelect_select (g : HostReg) : HostReg.ofSelect g.select = some g := by
  cases g with
  | r i => revert i; decide
  | ptInf i | ptX i | ptY i => revert i; decide
  | id | cmd | status | err | encLen | ikmLen | saltLen | infoLen | okmReq | okmLen => rfl
  | constP | constA | constB | constGx | constGy | constN => rfl

/-- A window's number is that of its register. -/
theorem toNat_select_of_windowOfSelect {n : Nat} {g : HostReg} (h : windowOfSelect n = some g) :
    g.select.toNat = n := by
  unfold windowOfSelect at h
  split_ifs at h
  · cases h
    simp only [HostReg.select, BitVec.toNat_ofNat, Fin.val_ofNat]
    omega
  · dsimp only at h
    split at h <;> cases h <;> simp only [HostReg.select, BitVec.toNat_ofNat, Fin.val_ofNat] <;> omega

/-- The map is injective: a register has one select number. -/
theorem HostReg.eq_select {sel : BitVec 8} {g : HostReg} (h : HostReg.ofSelect sel = some g) : sel = g.select := by
  apply BitVec.eq_of_toNat_eq
  unfold HostReg.ofSelect at h
  split at h
  case h_17 => exact (toNat_select_of_windowOfSelect h).symm
  all_goals (cases h; assumption)

@[simp] theorem hostReadReg_select (c : Curve) (s : State) (g : HostReg) :
    hostReadReg c s g.select = s.readHostReg c g := by
  rw [hostReadReg, HostReg.ofSelect_select]

@[simp] theorem hostWriteReg_select (s : State) (g : HostReg) (v : Word256) :
    hostWriteReg s g.select v = s.writeHostReg v g := by
  rw [hostWriteReg, HostReg.ofSelect_select]

/-! What the numbers read as, in the spec's words (R26) -/

theorem zeroExtend_ofNat {n : Nat} (h : n < 2 ^ 32) : (BitVec.ofNat 32 n).zeroExtend 256 = BitVec.ofNat 256 n := by
  apply BitVec.eq_of_toNat_eq
  simp only [BitVec.zeroExtend, BitVec.toNat_setWidth, BitVec.toNat_ofNat]
  omega

theorem zeroExtend_statusWord (s : State) : s.statusWord.zeroExtend 256
    = BitVec.ofNat 256 (s.running.isSome.toNat + 2 * s.error.toNat + 4 * s.fatal.toNat) := by
  have h1 := s.busy.toNat_lt
  have h2 := s.error.toNat_lt
  have h3 := s.fatal.toNat_lt
  exact zeroExtend_ofNat (by omega)

theorem zeroExtend_errWord (s : State) : s.errWord.zeroExtend 256 = BitVec.ofNat 256 (errorCode s.err) := by
  unfold State.errWord
  split
  next h => rw [h]; rfl
  next e h => rw [h]; cases e <;> rfl

/-- The window of the integer registers, in the spec's table (R39). -/
theorem registerValue_r (c : Curve) (s : State) {sel : BitVec 8} {i : RIdx} (h : sel.toNat = 0x20 + i) :
    registerValue c s sel = s.reg i := by
  have hi : Fin.ofNat 8 (sel.toNat - 0x20) = i := Fin.ext (by simp only [Fin.val_ofNat]; omega)
  unfold registerValue
  split
  case h_17 => rw [if_pos (by omega)]; simp only [hi]; rfl
  all_goals omega

/-- The window of a point register, in the spec's table: its three fields, then a reserved number (R26, R39). -/
theorem registerValue_point (c : Curve) (s : State) {sel : BitVec 8} {i : PIdx} {j : Nat}
    (h : sel.toNat = 0x40 + 4 * i + j) (hj : j < 4) : registerValue c s sel
      = if j = 0 then (s.point i).infField else if j = 1 then (s.point i).xField
        else if j = 2 then (s.point i).yField else 0 := by
  have hi : Fin.ofNat 4 ((sel.toNat - 0x40) / 4) = i := Fin.ext (by simp only [Fin.val_ofNat]; omega)
  have hm : sel.toNat % 4 = j := by omega
  unfold registerValue
  split
  case h_17 =>
    rw [if_neg (by omega), if_pos (by omega)]
    simp only [hi, hm, State.point]
    interval_cases j <;> cases s.pt[i] <;> rfl
  all_goals omega

/-- The spec's table of values, at a register's number (R28 to R39). -/
theorem registerValue_select (c : Curve) (s : State) (g : HostReg) :
    registerValue c s g.select = s.readHostReg c g := by
  cases g with
  | status => exact (zeroExtend_statusWord s).symm
  | err => exact (zeroExtend_errWord s).symm
  | encLen | ikmLen | saltLen | infoLen | okmReq | okmLen => exact BitVec.ofNat_toNat _ _
  | id | cmd | constP | constA | constB | constGx | constGy | constN => rfl
  | r i => exact registerValue_r c s (by simp only [HostReg.select, BitVec.toNat_ofNat]; omega)
  | ptInf i =>
    exact registerValue_point c s (j := 0) (by simp only [HostReg.select, BitVec.toNat_ofNat]; omega) (by decide)
  | ptX i =>
    exact registerValue_point c s (j := 1) (by simp only [HostReg.select, BitVec.toNat_ofNat]; omega) (by decide)
  | ptY i =>
    exact registerValue_point c s (j := 2) (by simp only [HostReg.select, BitVec.toNat_ofNat]; omega) (by decide)

/-- No register is named at a point's fourth number and outside the windows. -/
theorem windowOfSelect_none {n : Nat} (h : windowOfSelect n = none) :
    (∃ i : PIdx, n = 0x40 + 4 * i + 3) ∨ ¬(0x20 ≤ n ∧ n < 0x28) ∧ ¬(0x40 ≤ n ∧ n < 0x50) := by
  unfold windowOfSelect at h
  split_ifs at h with h1 h2
  · dsimp only at h
    split at h
    case h_4 =>
      simp only [imp_false] at *
      exact .inl ⟨⟨(n - 0x40) / 4, by omega⟩, by simp only; omega⟩
    all_goals cases h
  · exact .inr ⟨h1, h2⟩

/-- A number that names no register has the value 0 (R58; log entry 11). -/
theorem registerValue_of_none (c : Curve) (s : State) {sel : BitVec 8} (h : HostReg.ofSelect sel = none) :
    registerValue c s sel = 0 := by
  unfold HostReg.ofSelect at h
  split at h
  case h_17 =>
    obtain ⟨i, hi⟩ | ⟨hr, hpt⟩ := windowOfSelect_none h
    · exact registerValue_point c s hi (by decide)
    · unfold registerValue
      split
      case h_17 => rw [if_neg hr, if_neg hpt]
      all_goals contradiction
  all_goals cases h

/-- A host's read answers the spec's table, for every select number (R26, R28 to R39). -/
theorem hostReadReg_eq_registerValue (c : Curve) (s : State) (sel : BitVec 8) :
    hostReadReg c s sel = registerValue c s sel := by
  cases h : HostReg.ofSelect sel with
  | none => rw [registerValue_of_none c s h, hostReadReg, h]
  | some g => rw [HostReg.eq_select h, hostReadReg_select, registerValue_select]

/-- A number that names no buffer reads 0 (R58; log entry 11). -/
theorem bufferByte_of_none (k : Capacities) (s : State) {sel : BitVec 8} (h : Buf.ofSelect sel = none) (off : Nat) :
    bufferByte k s sel off = 0 := by
  unfold Buf.ofSelect at h
  split at h
  case h_6 =>
    unfold bufferByte
    split
    case h_6 => rfl
    all_goals contradiction
  all_goals cases h

/-- The spec's table of bytes, at a buffer's number (R24). -/
theorem bufferByte_select (k : Capacities) (s : State) (b : Buf) (off : Nat) :
    bufferByte k s b.select off = if off < b.cap k then (s.buf b).read off else 0 := by
  cases b <;> rfl

/-- A host's read of a buffer answers the spec's table, for every select number and offset (R24, R53). -/
theorem hostReadBuf_eq_bufferByte (k : Capacities) (s : State) (sel : BitVec 8) (off : Nat) :
    hostReadBuf k s sel off = bufferByte k s sel off := by
  cases h : Buf.ofSelect sel with
  | none => rw [bufferByte_of_none k s h, hostReadBuf, h]
  | some b => rw [hostReadBuf, h, Buf.eq_select h, bufferByte_select]

end Sys2Proof.Machine
end

section
/-! What each access of the host does, by register: the steps of an idle CORE and of a busy one, the writes of `CMD` and
of the length registers, what a reset leaves. Settles O1, O2, O9, O13, O14, O16, O18, O19, O50, O54. -/

namespace Sys2Proof.Machine

open Sys2Proof.Spec

/-! Steps that make an access -/

/-- An access that does not wait is made while a command runs (R60). -/
theorem advance_of_busy (k : Parameters) {s : State} {op : HostOp} {rest : List HostAccess} (hr : s.running ≠ none)
    (hin : s.hostIn = ⟨op, true⟩ :: rest) : advance k s = .next (hostWhenBusy k.curve { s with hostIn := rest } op) := by
  obtain ⟨w, hw⟩ := Option.ne_none_iff_exists'.1 hr
  simp only [advance, hw, hin, if_true]

@[simp] theorem State.readHostReg_withHostIn (c : Curve) (s : State) (rest : List HostAccess) (g : HostReg) :
    State.readHostReg c { s with hostIn := rest } g = s.readHostReg c g := by
  cases g <;> rfl

section
variable (k : Parameters) {s : State} {wb : Bool} {rest : List HostAccess} (hr : s.running = none)
include hr

/-- An idle read of a register answers its value and changes nothing (R53, R56). -/
theorem advance_readReg (g : HostReg) (hin : s.hostIn = ⟨.readReg g.select, wb⟩ :: rest) :
    advance k s = .next { s with hostIn := rest, hostOut := .reg (s.readHostReg k.curve g) :: s.hostOut } := by
  rw [advance_of_idle k hr hin, hostWhenIdle, hostReadReg_select, State.readHostReg_withHostIn]
  rfl

/-- An idle write of a register (R53). -/
theorem advance_writeReg (g : HostReg) {v : Word256} (hin : s.hostIn = ⟨.writeReg g.select v, wb⟩ :: rest) :
    advance k s = .next (State.writeHostReg { s with hostIn := rest } v g) := by
  rw [advance_of_idle k hr hin, hostWhenIdle, hostWriteReg_select]

end

/-! Writes of 32-bit registers (R53) -/

theorem State.write32_of_lt (s : State) {v : Word256} (h : v.toNat < 2 ^ 32) (f : Word32 → State) :
    s.write32 v f = f (v.truncate 32) :=
  if_pos h

theorem State.write32_of_le (s : State) {v : Word256} (h : 2 ^ 32 ≤ v.toNat) (f : Word32 → State) :
    s.write32 v f = s :=
  if_neg (not_lt.2 h)

theorem zeroExtend_truncate {v : Word256} (h : v.toNat < 2 ^ 32) : (v.truncate 32).zeroExtend 256 = v := by
  apply BitVec.eq_of_toNat_eq
  simp only [BitVec.zeroExtend, BitVec.truncate, BitVec.toNat_setWidth]
  omega

/-- A 32-bit word always fits. -/
theorem State.write32_zeroExtend (s : State) (w : Word32) (f : Word32 → State) :
    s.write32 (w.zeroExtend 256) f = f w := by
  have hw : (w.zeroExtend 256).toNat = w.toNat := by
    rw [BitVec.zeroExtend, BitVec.toNat_setWidth]
    omega
  have htr : (w.zeroExtend 256).truncate 32 = w := by
    apply BitVec.eq_of_toNat_eq
    rw [BitVec.truncate, BitVec.toNat_setWidth, hw, Nat.mod_eq_of_lt w.isLt]
  rw [State.write32_of_lt s (hw ▸ w.isLt), htr]

/-- The write of a command word issues it (R29, R73). -/
theorem advance_writeCmd (k : Parameters) {s : State} {w : Word32} {wb : Bool} {rest : List HostAccess}
    (hr : s.running = none) (hin : s.hostIn = ⟨.writeReg 0x01 (w.zeroExtend 256), wb⟩ :: rest) :
    advance k s = .next (State.issue { s with hostIn := rest } w) := by
  rw [advance_writeReg k hr .cmd hin, State.writeHostReg, State.write32_zeroExtend]

/-! Which fields a write leaves -/

theorem State.write32_running {s : State} {f : Word32 → State} (hf : ∀ w, (f w).running = s.running) (v : Word256) :
    (s.write32 v f).running = s.running := by
  unfold State.write32
  split
  · exact hf _
  · rfl

/-- Only a write of `CMD` starts a command (R29). -/
theorem hostWriteReg_running (s : State) {sel : BitVec 8} (h : sel ≠ 0x01) (v : Word256) :
    (hostWriteReg s sel v).running = s.running := by
  unfold hostWriteReg
  split
  next g hg =>
    cases g with
    | cmd => exact absurd (HostReg.eq_select hg) h
    | encLen | ikmLen | saltLen | infoLen | okmReq =>
      rw [State.writeHostReg]
      refine State.write32_running ?_ v
      exact fun _ => rfl
    | id | status | err | okmLen | constP | constA | constB | constGx | constGy | constN | r | ptInf | ptX | ptY => rfl
  · rfl

/-- No access but reset changes a point register (R22, R23). -/
theorem hostWhenIdle_pt (k : Parameters) (s : State) {op : HostOp} (h : op ≠ .reset) :
    (hostWhenIdle k s op).pt = s.pt := by
  cases op with
  | reset => exact absurd rfl h
  | readReg | readBuf => rfl
  | writeReg sel v => rw [hostWhenIdle, hostWriteReg_frame s sel v]
  | writeBuf sel off v =>
    obtain he | ⟨b, -, he⟩ := hostWriteBuf_cases k.capacities s sel off v <;> rw [hostWhenIdle, he]
    exact State.setBuf_pt _ _ _

theorem hostWhenBusy_pt (c : Curve) (s : State) {op : HostOp} (h : op ≠ .reset) : (hostWhenBusy c s op).pt = s.pt := by
  cases op with
  | reset => exact absurd rfl h
  | readReg | readBuf | writeReg | writeBuf => rfl

/-! The five length registers the host may write (R32 to R36) -/

/-- `ENC_LEN`, `IKM_LEN`, `SALT_LEN`, `INFO_LEN`, `OKM_REQ`. -/
inductive HostReg.WritableLength : HostReg → Prop where
  | encLen : WritableLength .encLen
  | ikmLen : WritableLength .ikmLen
  | saltLen : WritableLength .saltLen
  | infoLen : WritableLength .infoLen
  | okmReq : WritableLength .okmReq

/-- Select numbers 4 to 8 (R26). -/
theorem exists_writableLength {sel : BitVec 8} (h4 : 4 ≤ sel.toNat) (h8 : sel.toNat ≤ 8) :
    ∃ g : HostReg, g.WritableLength ∧ sel = g.select := by
  obtain h | h | h | h | h : sel.toNat = 4 ∨ sel.toNat = 5 ∨ sel.toNat = 6 ∨ sel.toNat = 7 ∨ sel.toNat = 8 := by omega
  · exact ⟨_, .encLen, BitVec.eq_of_toNat_eq h⟩
  · exact ⟨_, .ikmLen, BitVec.eq_of_toNat_eq h⟩
  · exact ⟨_, .saltLen, BitVec.eq_of_toNat_eq h⟩
  · exact ⟨_, .infoLen, BitVec.eq_of_toNat_eq h⟩
  · exact ⟨_, .okmReq, BitVec.eq_of_toNat_eq h⟩

section
variable {g : HostReg} (hg : g.WritableLength) (c : Curve) (s : State) {v : Word256}
include hg

/-- A value that fits is what the register then reads as. -/
theorem readHostReg_writeHostReg_self (hv : v.toNat < 2 ^ 32) : (s.writeHostReg v g).readHostReg c g = v := by
  cases hg <;> rw [State.writeHostReg, State.write32_of_lt s hv] <;> exact zeroExtend_truncate hv

/-- A value that does not fit changes nothing (log entry 10). -/
theorem writeHostReg_of_le (hv : 2 ^ 32 ≤ v.toNat) : s.writeHostReg v g = s := by
  cases hg <;> rw [State.writeHostReg, State.write32_of_le s hv]

/-- Every other register reads as before. -/
theorem readHostReg_writeHostReg_of_ne {g' : HostReg} (hne : g' ≠ g) :
    (s.writeHostReg v g).readHostReg c g' = s.readHostReg c g' := by
  obtain hv | hv := le_or_gt (2 ^ 32) v.toNat
  · rw [writeHostReg_of_le hg s hv]
  · cases hg <;> rw [State.writeHostReg, State.write32_of_lt s hv] <;> cases g' <;>
      first | rfl | exact absurd rfl hne

theorem writeHostReg_lengths_frame : s.writeHostReg v g = { s with
    encLen := (s.writeHostReg v g).encLen, ikmLen := (s.writeHostReg v g).ikmLen,
    saltLen := (s.writeHostReg v g).saltLen, infoLen := (s.writeHostReg v g).infoLen,
    okmReq := (s.writeHostReg v g).okmReq } := by
  obtain hv | hv := le_or_gt (2 ^ 32) v.toNat
  · rw [writeHostReg_of_le hg s hv]
  · cases hg <;> rw [State.writeHostReg, State.write32_of_lt s hv]

end

/-- A read depends on the register of its select number only. -/
theorem hostReadReg_congr {c : Curve} {s t : State} {sel : BitVec 8}
    (h : ∀ g, sel = HostReg.select g → t.readHostReg c g = s.readHostReg c g) :
    hostReadReg c t sel = hostReadReg c s sel := by
  unfold hostReadReg
  split
  next g hg => exact h g (HostReg.eq_select hg)
  · rfl

/-! The fields of a point register (R22, R39) -/

theorem Point.infField_eq (P : Point) : P.infField = if P = .inf then 1 else 0 := by
  cases P with
  | inf => rfl
  | aff x y => rw [if_neg nofun]; rfl

/-! What a reset leaves (R42, R231); `State.reset` is by definition the reset of itself -/

/-- A reset is made whether the CORE is idle or busy (R230, R232). -/
theorem advance_reset (k : Parameters) {s : State} {wb : Bool} {rest : List HostAccess}
    (hin : s.hostIn = ⟨.reset, wb⟩ :: rest) (h : s.running = none ∨ wb = true) :
    advance k s = .next (hostReset { s with hostIn := rest }) := by
  by_cases hr : s.running = none
  · exact advance_of_idle k hr hin
  · obtain rfl := h.resolve_left hr
    exact advance_of_busy k hr hin

section
variable (s : State)

theorem hostReset_r (i : RIdx) : (hostReset s).r[i] = 0 := Vector.getElem_replicate i.isLt

theorem hostReset_pt (i : PIdx) : (hostReset s).pt[i] = .inf := Vector.getElem_replicate i.isLt

theorem hostReset_read (b : Buf) (off : Nat) : Memory.read ((hostReset s).buf b) off = 0 := by
  cases b <;> rfl

theorem hostReset_statusWord : (hostReset s).statusWord = 0 := rfl

theorem hostReset_errWord : (hostReset s).errWord = 0 := rfl

end

/-! The bits of `STATUS` (R30) -/

/-- A number of three binary digits has them as its bits. -/
theorem getLsbD_threeBits (a b d : Bool) :
    (BitVec.ofNat 32 (a.toNat + 2 * b.toNat + 4 * d.toNat)).getLsbD 0 = a ∧
    (BitVec.ofNat 32 (a.toNat + 2 * b.toNat + 4 * d.toNat)).getLsbD 1 = b ∧
    (BitVec.ofNat 32 (a.toNat + 2 * b.toNat + 4 * d.toNat)).getLsbD 2 = d := by
  revert a b d
  decide

theorem statusWord_high_bits (s : State) {i : Nat} (hi : 3 ≤ i) : s.statusWord.getLsbD i = false := by
  have h1 := s.busy.toNat_lt
  have h2 := s.error.toNat_lt
  have h3 := s.fatal.toNat_lt
  have hlt : s.busy.toNat + 2 * s.error.toNat + 4 * s.fatal.toNat < 2 ^ i :=
    lt_of_lt_of_le (by omega) (Nat.pow_le_pow_right (by decide) hi)
  rw [State.statusWord, BitVec.getLsbD_ofNat, Nat.testBit_lt_two_pow hlt, Bool.and_false]

end Sys2Proof.Machine

namespace Sys2Proof.Proofs

open Sys2Proof.Machine Sys2Proof.Spec Sys2Proof.Tests

/-- Settles O16: a read is the spec's table of values (`hostReadReg_eq_registerValue`, `hostReadBuf_eq_bufferByte`), and of
the writes only that of `CMD` reaches the status. -/
theorem onlyCmdWritesHaveSideEffects : Obligations.OnlyCmdWritesHaveSideEffects := by
  intro k s op wb rest hr hin
  refine ⟨_, advance_of_idle k hr hin, ?readReg, ?readBuf, ?writeReg, ?writeBuf⟩
  case readReg =>
    rintro sel rfl
    refine ⟨hostReadReg_eq_registerValue k.curve s sel, ?_⟩
    rw [hostWhenIdle, hostReadReg_eq_registerValue]
    rfl
  case readBuf =>
    rintro sel off rfl
    refine ⟨hostReadBuf_eq_bufferByte k.capacities s sel off, ?_⟩
    rw [hostWhenIdle, hostReadBuf_eq_bufferByte]
    rfl
  case writeReg =>
    rintro sel v rfl hsel
    have hframe := hostWriteReg_frame { s with hostIn := rest } sel v
    refine ⟨(hostWriteReg_running _ hsel v).trans hr, ?_⟩
    rw [hostWhenIdle, hframe]
    exact ⟨rfl, rfl, rfl⟩
  case writeBuf =>
    rintro sel off v rfl
    obtain he | ⟨b, -, he⟩ := hostWriteBuf_cases k.capacities { s with hostIn := rest } sel off v <;>
      rw [hostWhenIdle, he]
    · exact ⟨hr, rfl, rfl, rfl⟩
    · simp [hr]

/-- Settles O1: the reset values, and the registers of the host by their select numbers. -/
theorem resetStateHoldsTheTableValues : Obligations.ResetStateHoldsTheTableValues := by
  refine ⟨hostReset_r State.reset, hostReset_pt State.reset, hostReset_read State.reset, rfl, rfl, rfl, rfl, rfl, rfl, rfl,
    hostReset_statusWord State.reset, hostReset_errWord State.reset, fun c => ⟨rfl, rfl, rfl, rfl, rfl, rfl, rfl, fun i => ?_⟩⟩
  have hpt : State.reset.point i = .inf := hostReset_pt State.reset i
  exact ⟨(hostReadReg_select c _ (.ptInf i)).trans (congrArg Point.infField hpt),
    (hostReadReg_select c _ (.ptX i)).trans (congrArg Point.xField hpt),
    (hostReadReg_select c _ (.ptY i)).trans (congrArg Point.yField hpt)⟩

/-- Settles O2: the step is `hostReset` in both cases, and what it leaves is idle and not fatal, so it takes a command. -/
theorem hostResetRestoresEveryPiece : Obligations.HostResetRestoresEveryPiece := by
  intro s rest wb hin h
  have hstep : step s = .next (hostReset { s with hostIn := rest }) := advance_reset Config.parameters hin h
  refine ⟨_, hstep, hostReset_r _, hostReset_pt _, hostReset_read _, rfl, rfl, rfl, rfl, rfl, rfl, hostReset_statusWord _,
    hostReset_errWord _, rfl, rfl, rfl, rfl, fun w wb' more hrest => ?_⟩
  exact advance_writeCmd Config.parameters (s := hostReset { s with hostIn := rest }) rfl hrest

/-- Settles O9: idle, the write is `State.issue`; busy, every write is ignored. -/
theorem cmdWriteIssuesTheCommand : Obligations.CmdWriteIssuesTheCommand := by
  refine fun s w wb rest => ⟨fun hin => ⟨fun hr hf => ?idle, fun hr hf => ?fatal, fun hr hwb => ?busy⟩, fun hin h => ?read⟩
  case idle => rw [step, advance_writeCmd _ hr hin, State.issue, if_neg (by simp [hf])]
  case fatal => rw [step, advance_writeCmd _ hr hin, State.issue, if_pos hf]
  case busy =>
    subst hwb
    exact advance_of_busy Config.parameters hr hin
  case read =>
    by_cases hr : s.running = none
    · exact advance_readReg Config.parameters hr .cmd hin
    · obtain rfl := h.resolve_left hr
      exact advance_of_busy Config.parameters hr hin

/-- Settles O13: the windows' numbers are those of `HostReg.r`, `ptInf`, `ptX` and `ptY`. -/
theorem windowsShowTheRegisterFiles : Obligations.WindowsShowTheRegisterFiles := by
  intro s wb rest hr
  have hread := fun g => advance_readReg Config.parameters (wb := wb) (rest := rest) hr g
  have hwrite := fun g v => advance_writeReg Config.parameters (wb := wb) (rest := rest) hr g (v := v)
  refine ⟨fun i => ⟨hread (.r i), hwrite (.r i)⟩, fun i => ⟨fun hin => ?inf, fun hin => ?x, fun hin => ?y, ?ignored⟩⟩
  case inf =>
    rw [step, hread (.ptInf i) hin, State.readHostReg, Point.infField_eq]
    rfl
  case x =>
    rw [step, hread (.ptX i) hin, State.readHostReg, State.point]
    exact ⟨fun hP => by rw [hP]; rfl, fun x y hP => by rw [hP]; rfl⟩
  case y =>
    rw [step, hread (.ptY i) hin, State.readHostReg, State.point]
    exact ⟨fun hP => by rw [hP]; rfl, fun x y hP => by rw [hP]; rfl⟩
  case ignored =>
    intro k v hk hin
    interval_cases k
    · exact hwrite (.ptInf i) v hin
    · exact hwrite (.ptX i) v hin
    · exact hwrite (.ptY i) v hin

/-- Settles O14: the write of a length register, by the register of the select number. -/
theorem lengthRegistersHoldHostWrites : Obligations.LengthRegistersHoldHostWrites := by
  intro k s sel v wb rest hr hin h4 h8
  obtain ⟨g, hg, rfl⟩ := exists_writableLength h4 h8
  refine ⟨_, advance_writeReg k hr g hin, fun hv => ?_, writeHostReg_of_le hg _, fun sel' hne => ?_,
    writeHostReg_lengths_frame hg _⟩
  · rw [hostReadReg_select]
    exact readHostReg_writeHostReg_self hg k.curve _ hv
  · refine hostReadReg_congr fun g' hg' => ?_
    rw [readHostReg_writeHostReg_of_ne hg k.curve _ (fun h => hne (by rw [hg', h])), State.readHostReg_withHostIn]

/-- Settles O18: the codes of R201. -/
theorem errorKindsHaveTheirCodes : Obligations.ErrorKindsHaveTheirCodes :=
  fun _ => ⟨rfl, rfl, rfl, rfl, rfl, rfl, rfl, rfl, rfl, rfl, rfl, rfl⟩

/-- Settles O19: `STATUS` is a number of three binary digits. -/
theorem statusWordHasThreeBits : Obligations.StatusWordHasThreeBits := fun s =>
  have ⟨h0, h1, h2⟩ := getLsbD_threeBits s.busy s.error s.fatal
  ⟨h0, h1, h2, fun _ hi => statusWord_high_bits s hi⟩

/-- Settles O50: no access but reset reaches `pt`. -/
theorem hostCannotWritePoints : Obligations.HostCannotWritePoints := by
  rintro k s t ⟨op, wb⟩ rest hin h hop ht
  by_cases hr : s.running = none
  · rw [advance_of_idle k hr hin] at ht
    cases ht
    exact hostWhenIdle_pt k _ hop
  · obtain rfl : wb = true := h.resolve_left hr
    rw [advance_of_busy k hr hin] at ht
    cases ht
    exact hostWhenBusy_pt k.curve _ hop

/-- Settles O54: every invariant holds after a reset, and `State.reset` is the reset of itself. -/
theorem resetStateIsLegal : Obligations.ResetStateIsLegal :=
  ⟨fun i => .inl (hostReset_pt State.reset i), fun k =>
    { points := hostReset_pointsWellFormed k.curve State.reset
      buffers := (hostReset_buffersInBounds k.capacities State.reset).buffers
      errors := hostReset_errorCoherent State.reset
      okmLen := (hostReset_buffersInBounds k.capacities State.reset).okmLen
      notFatal := rfl }⟩

end Sys2Proof.Proofs
end

section
/-! O8, O11, O37, O47, O48. The step of a running command, with and without a host access before its end; the bytes a
command stores; `ECDH` at the defaults. -/

namespace Sys2Proof.Machine

open Sys2Proof.Spec

/-! A placed command (log entry 13) -/

theorem whileBusy_of_holdNextAccess {l rest : List HostAccess} {a : HostAccess} (h : holdNextAccess l = a :: rest) :
    a.whileBusy = false := by
  cases l with
  | nil => cases h
  | cons b l => cases h; rfl

theorem undisturbed_withCommand (s : State) (w : Word32) : Undisturbed (s.withCommand w) :=
  fun _ _ h => whileBusy_of_holdNextAccess h

theorem decodeWord_of_decodeTableWord {nbits w : Nat} {i : Instr} (h : decodeTableWord nbits w = some i) :
    decodeWord (tableWord nbits w) = .ok i := by
  unfold decodeTableWord at h
  split_ifs at h
  split at h
  next j hj => rw [hj, Option.some.inj h]
  next => cases h

/-- The word of `ECDH` (R70, R72). -/
theorem decodeWord_ecdh : ∀ (rs1 : RIdx) (ps2 : PIdx), decodeWord (word 0x31 0 rs1 ps2 0) = .ok (.ecdh rs1 ps2) := by
  decide

/-! Reads while a command runs (R60) -/

theorem hostReadRegBusy_id (c : Curve) (s : State) : hostReadRegBusy c s 0x00 = 0x50323536 := rfl

theorem hostReadRegBusy_status (c : Curve) (s : State) : hostReadRegBusy c s 0x02 = s.statusWord.zeroExtend 256 := rfl

theorem hostReadRegBusy_of_ne (c : Curve) (s : State) {sel : BitVec 8} (hid : sel ≠ 0x00) (hstatus : sel ≠ 0x02) :
    hostReadRegBusy c s sel = 0 :=
  if_neg (not_or.2 ⟨hid, hstatus⟩)

/-! Every step has a next state (R249) -/

theorem Ending.running_eq_none {i : Instr} {s t : State} (he : Ending i s t) : t.running = none := by
  obtain ⟨-, -, hrun⟩ := he.raisesOnlyItsErrors
  exact hrun

/-- A command that runs to its end leaves the CORE idle, whatever its word. -/
theorem runCommand_ends (k : Parameters) (w : Word32) (s : State) :
    ∃ t, runCommand k w s = .next t ∧ t.running = none := by
  unfold runCommand
  split
  next i _ =>
    obtain ⟨t, ht, he⟩ := commandMeaning_ending k i s
    exact ⟨t, ht, he.running_eq_none⟩
  next => exact ⟨_, endCommand_error s .illegalCommand, rfl⟩

theorem advance_next (k : Parameters) (s : State) :
    ∃ t, advance k s = .next t ∧ (s.running ≠ none → Undisturbed s → t.running = none) := by
  cases hr : s.running with
  | none =>
    cases hin : s.hostIn with
    | nil => exact ⟨s, by simp only [advance, hr, hin], fun h => absurd rfl h⟩
    | cons a rest => exact ⟨_, advance_of_idle k hr hin, fun h => absurd rfl h⟩
  | some w =>
    by_cases hu : Undisturbed s
    · obtain ⟨t, ht, hidle⟩ := runCommand_ends k w s
      exact ⟨t, (advance_of_running k hr hu).trans ht, fun _ _ => hidle⟩
    · obtain ⟨⟨op, _⟩, rest, hin, rfl⟩ : ∃ a rest, s.hostIn = a :: rest ∧ true = a.whileBusy := by
        simpa [Undisturbed] using hu
      exact ⟨_, advance_of_busy k (by simp [hr]) hin, fun _ h => absurd h hu⟩

/-! The bytes a command leaves (R63) -/

/-- Delivering a byte string leaves every byte beyond its end and every other buffer and length. -/
theorem deliver_keepsOtherBytes {i : Instr} {s : State} {b : Buf} {bytes : List Byte}
    (hs : storesTo i s = some (b, bytes.length)) (hm : (s.buf b).wf) : KeepsOtherBytes i s (s.deliver b bytes) := by
  intro b'
  refine ⟨fun off hoff => ?_, fun hlen => State.bufLen_deliver_of_ne s bytes (hlen b _ hs)⟩
  by_cases hb : b' = b
  · have hle : bytes.length ≤ off := hoff b _ hs hb
    rw [hb, State.buf_deliver_self, read_memWrite off bytes 0 hm, if_neg (by omega)]
  · rw [State.buf_deliver_of_ne s bytes hb]

theorem Ending.keepsOtherBytes {i : Instr} {s t : State} (he : Ending i s t) (hm : ∀ b, (s.buf b).wf) :
    KeepsOtherBytes i s t := by
  cases he with
  | failed | keygenFailed | wroteReg | wrotePoint | wroteKeys => intro b; simp
  | stored b bytes hs =>
    intro b'
    rw [State.buf_endOk, State.bufLen_endOk]
    exact deliver_keepsOtherBytes hs (hm b) b'

end Sys2Proof.Machine

namespace Sys2Proof.Spec

open Sys2Proof.Machine Sys2Proof.Tests

/-- `ECDH` refuses a scalar that `n` divides, whatever `IKM` holds (R153). -/
theorem PrimeOrder.ecdh_of_mod_eq_zero {k : Parameters} (hk : PrimeOrder k.curve) {rs1 : RIdx} {ps2 : PIdx} {s : State}
    (hP : WellFormedOf k.curve s.pt[ps2]) (hne : s.pt[ps2] ≠ .inf) (h0 : s.r[rs1].toNat % k.curve.n = 0) :
    commandMeaning k (.ecdh rs1 ps2) s = .next (fails s .degenerateSharedSecret) := by
  have hw := (wellFormedOf_iff (parameters_p_pos k) _).1 hP
  have hinf := (hk.multipleOf_eq_inf_iff hw hne _).2 (Nat.dvd_of_mod_eq_zero h0)
  rw [ecdh_of_error (hk.sharedSecret_of_inf hw hne hinf), State.raise_eq_fails rfl]

end Sys2Proof.Spec

namespace Sys2Proof.Proofs

open Sys2Proof.Machine Sys2Proof.Spec Sys2Proof.Tests

/-- Settles O8: a running word's step is its command's meaning (`advance_of_decode`), and a placed word runs undisturbed. -/
theorem stepRunsTheDecodedCommand : Obligations.StepRunsTheDecodedCommand := by
  have key : ∀ (s : State) (w : Word32) (i : Instr), s.running = some w → Undisturbed s → decodeWord w = .ok i →
      step s = exec i s := fun s w i hr hu hd =>
    (advance_of_decode Config.parameters hr hu hd).trans (commandMeaning_default i s)
  exact ⟨key, fun s nbits w i hd =>
    key _ _ i rfl (undisturbed_withCommand s _) (decodeWord_of_decodeTableWord hd)⟩

/-- Settles O11: the step is `hostWhenBusy`, access by access. -/
theorem accessWhileBusyIsHarmless : Obligations.AccessWhileBusyIsHarmless := by
  intro s w op rest hr hin
  have hstep : step s = .next (hostWhenBusy Config.curve { s with hostIn := rest } op) :=
    advance_of_busy Config.parameters (by simp [hr]) hin
  refine ⟨?readReg, ?readBuf, ?writeReg, ?writeBuf⟩
  case readReg =>
    rintro sel rfl
    rw [hstep, hostWhenBusy]
    refine ⟨?id, ?status, fun hid hstatus => ?other⟩
    case id => rintro rfl; rw [hostReadRegBusy_id]; rfl
    case status => rintro rfl; rw [hostReadRegBusy_status]; rfl
    case other => rw [hostReadRegBusy_of_ne _ _ hid hstatus]; rfl
  case readBuf => rintro sel off rfl; exact hstep
  case writeReg => rintro sel v rfl; exact hstep
  case writeBuf => rintro sel off v rfl; exact hstep

/-- Settles O37: at the defaults, whose curve has prime order, `ECDH` is that of O59. -/
theorem ecdhDeliversTheSharedSecret : Obligations.EcdhDeliversTheSharedSecret := by
  intro rs1 ps2 s
  have hk := witness_prime_order
  obtain ⟨-, -, -, hrejected, hsecret⟩ := scalarCommandsOnEveryCurve Config.parameters hk
  obtain ⟨hinf, hoff⟩ := hrejected rs1 ps2 s
  rw [← commandMeaning_default]
  refine ⟨?decodes, hinf, hoff, fun hne hP h0 => hk.ecdh_of_mod_eq_zero hP hne h0, fun hne hP h0 hm => ?secret⟩
  case decodes => exact decodeWord_ecdh rs1 ps2
  case secret =>
    obtain ⟨-, hdeliver⟩ := hsecret rs1 ps2 s hne hP hm
    exact hdeliver h0

/-- Settles O47: of the endings only a delivery reaches the buffers, and it writes the bytes of `storesTo`. -/
theorem commandsStoreOnlyToTheirBuffer : Obligations.CommandsStoreOnlyToTheirBuffer :=
  ⟨fun _ _ _ hm h => (exec_cases h).keepsOtherBytes hm, fun _ _ _ _ hm h => (commandMeaning_cases h).keepsOtherBytes hm⟩

/-- Settles O48: every arm of the step answers a next state, and every command ends (`runCommand_ends`). -/
theorem everyStepAnswersANextState : Obligations.EveryStepAnswersANextState :=
  ⟨advance_next Config.parameters, advance_next⟩

end Sys2Proof.Proofs
end

section
/-! O3, O4, O5, O6, O10. The words of the commands. A word is its fields (`Fields.ofWord_injective`), and the mask of a
row of the opcode table is, field by field, the format of the row's opcode (`and_mask_eq_match_iff_wellFormed`). So the
decoder takes exactly the well-formed words (`decodeWord_of_wellFormed`, `decodeWord_of_not_wellFormed`), and it reads
the whole of their fields (`ReadsAs.fields_eq`), which are those of the command's word (`Fields.ofWord_encodeInstr`). -/

namespace Sys2Proof

open Sys2Proof.Machine Sys2Proof.Spec

/-! A word and its fields (R70) -/

theorem toNat_eq_fields (w : Word32) :
    w.toNat = (Fields.ofWord w).op.toNat + (Fields.ofWord w).d.toNat * 2 ^ 8 +
      (Fields.ofWord w).s1.toNat * 2 ^ 12 + (Fields.ofWord w).s2.toNat * 2 ^ 16 +
      (Fields.ofWord w).c.toNat * 2 ^ 20 + (Fields.ofWord w).z.toNat * 2 ^ 21 := by
  simp only [Fields.ofWord, BitVec.extractLsb'_toNat, Nat.shiftRight_eq_div_pow]
  omega

theorem Fields.ofWord_injective : Function.Injective Fields.ofWord := by
  intro v w h
  apply BitVec.eq_of_toNat_eq
  rw [toNat_eq_fields v, toNat_eq_fields w, h]

/-- The fields of a word are the digits of its number. -/
theorem Fields.ofWord_of_toNat {w : Word32} {op d s1 s2 c : Nat} (hop : op < 2 ^ 8) (hd : d < 2 ^ 4) (hs1 : s1 < 2 ^ 4)
    (hs2 : s2 < 2 ^ 4) (hc : c < 2) (hw : w.toNat = op + d * 2 ^ 8 + s1 * 2 ^ 12 + s2 * 2 ^ 16 + c * 2 ^ 20) :
    Fields.ofWord w =
      ⟨BitVec.ofNat 8 op, BitVec.ofNat 4 d, BitVec.ofNat 4 s1, BitVec.ofNat 4 s2, BitVec.ofNat 1 c, 0#11⟩ := by
  simp only [Fields.ofWord, Fields.mk.injEq]
  refine ⟨?_, ?_, ?_, ?_, ?_, ?_⟩ <;> apply BitVec.eq_of_toNat_eq <;>
    simp only [BitVec.extractLsb'_toNat, BitVec.toNat_ofNat, Nat.shiftRight_eq_div_pow, hw] <;> omega

theorem Fields.ofWord_assemble {op d s1 s2 c : Nat} (hop : op < 2 ^ 8) (hd : d < 2 ^ 4) (hs1 : s1 < 2 ^ 4)
    (hs2 : s2 < 2 ^ 4) (hc : c < 2) :
    Fields.ofWord (assemble op d s1 s2 c) =
      ⟨BitVec.ofNat 8 op, BitVec.ofNat 4 d, BitVec.ofNat 4 s1, BitVec.ofNat 4 s2, BitVec.ofNat 1 c, 0#11⟩ :=
  Fields.ofWord_of_toNat hop hd hs1 hs2 hc (by rw [assemble, BitVec.toNat_ofNat, Nat.mod_eq_of_lt (by omega)])

/-! The mask of a format (R71, R72) -/

/-- The bits of a 4-bit field that a use of it requires to be zero. -/
def FieldUse.mask : FieldUse → BitVec 4
  | .r => 0x8
  | .p => 0xC
  | .zero => 0xF

theorem FieldUse.and_mask_eq_zero_iff (u : FieldUse) : ∀ v : BitVec 4, v &&& u.mask = 0#4 ↔ u.admits v = true := by
  cases u <;> decide

/-- The fields of a format's mask: the whole opcode, and the bits the format requires to be zero. -/
def Format.mask (g : Format) : Fields :=
  ⟨.allOnes 8, g.d.mask, g.s1.mask, g.s2.mask, if g.usesC then 0#1 else 1#1, .allOnes 11⟩

/-- The fields of a row's match: the opcode, and zeros. -/
def Fields.ofMatch (op : BitVec 8) : Fields := ⟨op, 0#4, 0#4, 0#4, 0#1, 0#11⟩

theorem Fields.ofWord_and (v w : Word32) :
    Fields.ofWord (v &&& w) =
      ⟨(Fields.ofWord v).op &&& (Fields.ofWord w).op, (Fields.ofWord v).d &&& (Fields.ofWord w).d,
        (Fields.ofWord v).s1 &&& (Fields.ofWord w).s1, (Fields.ofWord v).s2 &&& (Fields.ofWord w).s2,
        (Fields.ofWord v).c &&& (Fields.ofWord w).c, (Fields.ofWord v).z &&& (Fields.ofWord w).z⟩ := by
  simp only [Fields.ofWord, BitVec.extractLsb'_and]

/-- A word matches a row exactly when it has the row's opcode and satisfies the format the mask stands for. -/
theorem and_mask_eq_match_iff {pattern mask : Word32} {op : BitVec 8} {g : Format}
    (hmask : Fields.ofWord mask = g.mask) (hmatch : Fields.ofWord pattern = .ofMatch op) (w : Word32) :
    w &&& mask = pattern ↔ (Fields.ofWord w).op = op ∧ (Fields.ofWord w).fits g = true := by
  have hop : ∀ x : BitVec 8, x &&& .allOnes 8 = x := fun _ => BitVec.and_allOnes
  have hz : ∀ x : BitVec 11, x &&& .allOnes 11 = x := fun _ => BitVec.and_allOnes
  have hc : ∀ x : BitVec 1, x &&& (if g.usesC then 0#1 else 1#1) = 0#1 ↔ g.usesC = true ∨ x = 0#1 := by
    cases g.usesC <;> decide
  rw [← Fields.ofWord_injective.eq_iff, Fields.ofWord_and, hmask, hmatch]
  simp only [Format.mask, Fields.ofMatch, Fields.fits, Fields.mk.injEq, FieldUse.and_mask_eq_zero_iff, hop, hz, hc,
    Bool.and_eq_true, Bool.or_eq_true, beq_iff_eq, and_assoc]

/-! The rows of the opcode table (R72) -/

theorem opcodeTable_formats : ∀ row ∈ opcodeTable,
    Fields.ofWord row.2.1 = .ofMatch (Fields.ofWord row.2.1).op ∧
      (Format.ofOpcode (Fields.ofWord row.2.1).op).map Format.mask = some (Fields.ofWord row.2.2) := by
  decide

theorem opcodeTable_opcode_injective : ∀ row ∈ opcodeTable, ∀ row' ∈ opcodeTable,
    (Fields.ofWord row.2.1).op = (Fields.ofWord row'.2.1).op → row = row' := by
  decide

theorem opcodeTable_mnemonic_injective : ∀ row ∈ opcodeTable, ∀ row' ∈ opcodeTable,
    row.1 = row'.1 → row = row' := by
  decide

/-- A word matches a row of the table exactly when it is well-formed with the row's opcode. -/
theorem and_mask_eq_match_iff_wellFormed {row : String × Word32 × Word32} (hrow : row ∈ opcodeTable) (w : Word32) :
    w &&& row.2.2 = row.2.1 ↔
      (Fields.ofWord w).op = (Fields.ofWord row.2.1).op ∧ (Fields.ofWord w).wellFormed = true := by
  obtain ⟨hmatch, hformat⟩ := opcodeTable_formats row hrow
  obtain ⟨g, hg, hmask⟩ := Option.map_eq_some_iff.1 hformat
  rw [and_mask_eq_match_iff hmask.symm hmatch]
  exact and_congr_right fun hop => by rw [Fields.wellFormed, hop, hg]

/-! The operands (R80) -/

/-- What a use reads of a 4-bit field: the bits outside its mask. -/
def FieldUse.read : FieldUse → BitVec 4 → BitVec 4
  | .r, v => v &&& 0x7
  | .p, v => v &&& 0x3
  | .zero, _ => 0

theorem FieldUse.read_of_admits (u : FieldUse) : ∀ v : BitVec 4, u.admits v = true → u.read v = v := by
  cases u <;> decide

/-- What a format reads of the fields of a word. -/
def Format.read (g : Format) (f : Fields) : Fields :=
  ⟨f.op, g.d.read f.d, g.s1.read f.s1, g.s2.read f.s2, if g.usesC then f.c else 0#1, 0#11⟩

/-- Fields that satisfy a format are read whole. -/
theorem Format.read_of_fits {g : Format} {f : Fields} (h : f.fits g = true) : g.read f = f := by
  simp only [Fields.fits, Bool.and_eq_true, Bool.or_eq_true, beq_iff_eq] at h
  obtain ⟨⟨⟨⟨hd, hs1⟩, hs2⟩, hc⟩, hz⟩ := h
  have hc' : (if g.usesC then f.c else 0#1) = f.c := ite_eq_left_iff.2 fun hu => (hc.resolve_left hu).symm
  rw [Format.read, g.d.read_of_admits _ hd, g.s1.read_of_admits _ hs1, g.s2.read_of_admits _ hs2, hc', ← hz]

theorem rField_eq (w : Word32) (lo : Nat) : rField w lo = Fin.ofNat 8 (w.extractLsb' lo 4).toNat := by
  apply Fin.ext
  simp only [rField, Fin.val_ofNat, BitVec.val_toFin, BitVec.extractLsb'_toNat]
  omega

theorem pField_eq (w : Word32) (lo : Nat) : pField w lo = Fin.ofNat 4 (w.extractLsb' lo 4).toNat := by
  apply Fin.ext
  simp only [pField, Fin.val_ofNat, BitVec.val_toFin, BitVec.extractLsb'_toNat]
  omega

theorem cFlag_eq (w : Word32) : cFlag w = (w.extractLsb' 20 1).getLsbD 0 := by
  simp [cFlag]

/-! An index or the flag, read from its field and put back, and put into its field and read. -/

theorem FieldUse.ofNat_rIdx : ∀ v : BitVec 4, BitVec.ofNat 4 (Fin.ofNat 8 v.toNat) = FieldUse.r.read v := by
  decide

theorem FieldUse.ofNat_pIdx : ∀ v : BitVec 4, BitVec.ofNat 4 (Fin.ofNat 4 v.toNat) = FieldUse.p.read v := by
  decide

theorem ofBool_getLsbD_zero : ∀ v : BitVec 1, BitVec.ofBool (v.getLsbD 0) = v := by
  decide

theorem getLsbD_zero_ofBool : ∀ c : Bool, (BitVec.ofBool c).getLsbD 0 = c := by
  decide

theorem rIdx_ofNat : ∀ i : RIdx, Fin.ofNat 8 (BitVec.ofNat 4 i).toNat = i := by
  decide

theorem pIdx_ofNat : ∀ i : PIdx, Fin.ofNat 4 (BitVec.ofNat 4 i).toNat = i := by
  decide

/-! The encoder (R70 to R72) -/

/-- The fields of the command's word (R71, R80). -/
def Instr.fields : Instr → Fields
  | .fadd rd rs1 rs2 => ⟨0x01, .ofNat 4 rd, .ofNat 4 rs1, .ofNat 4 rs2, 0, 0⟩
  | .fsub rd rs1 rs2 => ⟨0x02, .ofNat 4 rd, .ofNat 4 rs1, .ofNat 4 rs2, 0, 0⟩
  | .fmul rd rs1 rs2 => ⟨0x03, .ofNat 4 rd, .ofNat 4 rs1, .ofNat 4 rs2, 0, 0⟩
  | .finv rd rs1 => ⟨0x04, .ofNat 4 rd, .ofNat 4 rs1, 0, 0, 0⟩
  | .pinf pd => ⟨0x10, .ofNat 4 pd, 0, 0, 0, 0⟩
  | .pbase pd => ⟨0x11, .ofNat 4 pd, 0, 0, 0, 0⟩
  | .pset pd rs1 rs2 => ⟨0x12, .ofNat 4 pd, .ofNat 4 rs1, .ofNat 4 rs2, 0, 0⟩
  | .oncurve rd rs1 rs2 => ⟨0x13, .ofNat 4 rd, .ofNat 4 rs1, .ofNat 4 rs2, 0, 0⟩
  | .pneg pd ps1 => ⟨0x14, .ofNat 4 pd, .ofNat 4 ps1, 0, 0, 0⟩
  | .padd pd ps1 ps2 => ⟨0x15, .ofNat 4 pd, .ofNat 4 ps1, .ofNat 4 ps2, 0, 0⟩
  | .pdbl pd ps1 => ⟨0x16, .ofNat 4 pd, .ofNat 4 ps1, 0, 0, 0⟩
  | .smul pd rs1 ps2 => ⟨0x20, .ofNat 4 pd, .ofNat 4 rs1, .ofNat 4 ps2, 0, 0⟩
  | .keygen rd pd => ⟨0x30, .ofNat 4 rd, .ofNat 4 pd, 0, 0, 0⟩
  | .ecdh rs1 ps2 => ⟨0x31, 0, .ofNat 4 rs1, .ofNat 4 ps2, 0, 0⟩
  | .encode ps1 c => ⟨0x40, 0, .ofNat 4 ps1, 0, .ofBool c, 0⟩
  | .decode pd => ⟨0x41, .ofNat 4 pd, 0, 0, 0, 0⟩
  | .fsqrt rd rs1 => ⟨0x42, .ofNat 4 rd, .ofNat 4 rs1, 0, 0, 0⟩
  | .hkdf => ⟨0x50, 0, 0, 0, 0, 0⟩

theorem Fields.ofWord_encodeInstr (i : Instr) : Fields.ofWord (encodeInstr i) = i.fields := by
  cases i
  case encode ps1 c =>
    cases c <;> exact Fields.ofWord_assemble (by omega) (by omega) (by omega) (by omega) (by decide)
  all_goals exact Fields.ofWord_assemble (by omega) (by omega) (by omega) (by omega) (by omega)

@[simp] theorem FieldUse.admits_r : ∀ i : RIdx, FieldUse.r.admits (BitVec.ofNat 4 i) = true := by
  decide

@[simp] theorem FieldUse.admits_p : ∀ i : PIdx, FieldUse.p.admits (BitVec.ofNat 4 i) = true := by
  decide

@[simp] theorem FieldUse.admits_zero : FieldUse.zero.admits 0#4 = true := rfl

theorem Fields.wellFormed_of_fits {f : Fields} {g : Format} (hg : Format.ofOpcode f.op = some g)
    (h : f.fits g = true) : f.wellFormed = true := by
  rw [Fields.wellFormed, hg]
  exact h

theorem Instr.fields_wellFormed (i : Instr) : i.fields.wellFormed = true := by
  cases i <;> apply Fields.wellFormed_of_fits rfl <;>
    simp [Instr.fields, Fields.fits, Format.rrr, Format.rr, Format.pOnly, Format.prr, Format.pp, Format.ppp,
      Format.prp, Format.rp, Format.srp, Format.ep, Format.none]

/-! The decoder (R72, R73) -/

/-- The row `pattern`, `mask` of the opcode table is that of the word's opcode and of the command `i`, whose operands
are what the opcode's format reads of the word. -/
structure ReadsAs (w : Word32) (i : Instr) (pattern mask : Word32) : Prop where
  row : (mnemonic i, pattern, mask) ∈ opcodeTable
  op : (Fields.ofWord w).op = (Fields.ofWord pattern).op
  fields : ∀ g, Format.ofOpcode (Fields.ofWord w).op = some g → i.fields = g.read (Fields.ofWord w)

theorem op_eq_of_toNat {w : Word32} {n : Nat} (h : (w.extractLsb' 0 8).toNat = n) :
    (Fields.ofWord w).op = BitVec.ofNat 8 n := by
  rw [← h, BitVec.ofNat_toNat, BitVec.setWidth_eq]
  rfl

/-- What the decoder does: the row of the word's opcode reads the word, or no opcode of the map is the word's. -/
theorem decodeWord_cases (w : Word32) :
    (∃ i pattern mask, ReadsAs w i pattern mask ∧ decodeWord w = rowOr w pattern mask i) ∨
      (Format.ofOpcode (Fields.ofWord w).op = none ∧ decodeWord w = .error .unassignedOpcode) := by
  unfold decodeWord
  split
  case h_19 =>
    refine .inr ⟨?_, rfl⟩
    simp only [Format.ofOpcode, Fields.ofWord]
  all_goals
    rename_i hop
    have hop := op_eq_of_toNat hop
    refine .inl ⟨_, _, _, ⟨?_, ?_, ?_⟩, rfl⟩
    · simp [mnemonic, opcodeTable]
    · rw [hop]; decide
    · rw [hop]
      rintro _ ⟨⟩
      simp only [Instr.fields, rField_eq, pField_eq, cFlag_eq, FieldUse.ofNat_rIdx, FieldUse.ofNat_pIdx,
        ofBool_getLsbD_zero, Format.read, hop]
      rfl

theorem rowOr_eq_ok_iff {w pattern mask : Word32} {i j : Instr} :
    rowOr w pattern mask i = .ok j ↔ w &&& mask = pattern ∧ i = j := by
  unfold rowOr
  split_ifs with h <;> simp_all [matchesRow]

theorem ReadsAs.rowOr_eq {w pattern mask : Word32} {i : Instr} (h : ReadsAs w i pattern mask) :
    rowOr w pattern mask i = if (Fields.ofWord w).wellFormed then .ok i else .error .malformedFields := by
  simp only [rowOr, matchesRow, beq_iff_eq, and_mask_eq_match_iff_wellFormed h.row w, h.op, true_and]

/-- The command a row reads a well-formed word as has all the fields of the word. -/
theorem ReadsAs.fields_eq {w pattern mask : Word32} {i : Instr} (h : ReadsAs w i pattern mask)
    (hwf : (Fields.ofWord w).wellFormed = true) : i.fields = Fields.ofWord w := by
  unfold Fields.wellFormed at hwf
  split at hwf
  next g hg => rw [h.fields g hg, Format.read_of_fits hwf]
  next => cases hwf

theorem decodeWord_of_wellFormed {w : Word32} (h : (Fields.ofWord w).wellFormed = true) :
    ∃ i pattern mask, ReadsAs w i pattern mask ∧ decodeWord w = .ok i := by
  obtain ⟨i, pattern, mask, hread, hd⟩ | ⟨hnone, -⟩ := decodeWord_cases w
  · exact ⟨i, pattern, mask, hread, by rw [hd, hread.rowOr_eq, if_pos h]⟩
  · simp [Fields.wellFormed, hnone] at h

theorem decodeWord_of_not_wellFormed {w : Word32} (h : (Fields.ofWord w).wellFormed = false) :
    ∃ e, decodeWord w = .error e := by
  obtain ⟨i, pattern, mask, hread, hd⟩ | ⟨-, hd⟩ := decodeWord_cases w
  · exact ⟨_, by rw [hd, hread.rowOr_eq, h]; rfl⟩
  · exact ⟨_, hd⟩

/-- A word that decodes is well-formed, and some row reads it as its command. -/
theorem wellFormed_of_decodeWord {w : Word32} {i : Instr} (h : decodeWord w = .ok i) :
    (Fields.ofWord w).wellFormed = true ∧ ∃ pattern mask, ReadsAs w i pattern mask := by
  have hwf : (Fields.ofWord w).wellFormed = true := by
    by_contra hwf
    obtain ⟨e, he⟩ := decodeWord_of_not_wellFormed (Bool.eq_false_iff.2 hwf)
    cases h.symm.trans he
  obtain ⟨j, pattern, mask, hread, hj⟩ := decodeWord_of_wellFormed hwf
  cases h.symm.trans hj
  exact ⟨hwf, pattern, mask, hread⟩

theorem wellFormed_iff_exists_row (w : Word32) :
    (Fields.ofWord w).wellFormed = true ↔ ∃ row ∈ opcodeTable, w &&& row.2.2 = row.2.1 := by
  constructor
  · intro h
    obtain ⟨i, pattern, mask, hread, -⟩ := decodeWord_of_wellFormed h
    exact ⟨_, hread.row, (and_mask_eq_match_iff_wellFormed hread.row w).2 ⟨hread.op, h⟩⟩
  · rintro ⟨row, hrow, hw⟩
    exact ((and_mask_eq_match_iff_wellFormed hrow w).1 hw).2

theorem encodeInstr_of_decodeWord {w : Word32} {i : Instr} (h : decodeWord w = .ok i) : encodeInstr i = w := by
  obtain ⟨hwf, pattern, mask, hread⟩ := wellFormed_of_decodeWord h
  apply Fields.ofWord_injective
  rw [Fields.ofWord_encodeInstr, hread.fields_eq hwf]

theorem decodeWord_encodeInstr (i : Instr) : decodeWord (encodeInstr i) = .ok i := by
  have hw := Fields.ofWord_encodeInstr i
  obtain ⟨j, -, -, -, hj⟩ := decodeWord_of_wellFormed (hw.symm ▸ i.fields_wellFormed)
  suffices j = i by rw [hj, this]
  generalize encodeInstr i = w at hw hj
  cases i
  -- The opcode selects the row of the command; each operand is then read back from the field it stands in.
  all_goals
    obtain ⟨hop, hd, hs1, hs2, hc, -⟩ := Fields.mk.inj hw
    unfold decodeWord at hj
    rw [hop] at hj
    obtain ⟨-, rfl⟩ := rowOr_eq_ok_iff.1 hj
    simp only [rField_eq, pField_eq, cFlag_eq, hd, hs1, hs2, hc, rIdx_ofNat, pIdx_ofNat, getLsbD_zero_ofBool]

end Sys2Proof

namespace Sys2Proof.Proofs

open Sys2Proof.Machine Sys2Proof.Spec

/-- Settles O5: the fields of the command's word satisfy its format, and the row of its opcode reads them back. -/
theorem decodeOfEncodeIsTheCommand : Obligations.DecodeOfEncodeIsTheCommand :=
  decodeWord_encodeInstr

/-- Settles O6: the decoder takes well-formed words only, and what it reads of their fields is all of them. -/
theorem encodeOfDecodeIsTheWord : Obligations.EncodeOfDecodeIsTheWord :=
  fun _ _ h => encodeInstr_of_decodeWord h

/-- Settles O3: the row that reads a word as its command is the one row with the word's opcode. -/
theorem decoderFollowsMatchAndMask : Obligations.DecoderFollowsMatchAndMask := by
  refine ⟨fun w row hrow => ⟨fun hw => ?decodes, ?satisfies⟩, fun w row hrow row' hrow' hw hw' => ?unique⟩
  case decodes =>
    obtain ⟨hop, hwf⟩ := (and_mask_eq_match_iff_wellFormed hrow w).1 hw
    obtain ⟨i, pattern, mask, hread, hi⟩ := decodeWord_of_wellFormed hwf
    have hsame := opcodeTable_opcode_injective _ hread.row row hrow (hread.op.symm.trans hop)
    exact ⟨i, hi, congrArg Prod.fst hsame⟩
  case satisfies =>
    rintro ⟨i, hi, hname⟩
    obtain ⟨hwf, pattern, mask, hread⟩ := wellFormed_of_decodeWord hi
    have hsame := opcodeTable_mnemonic_injective _ hread.row row hrow hname
    exact (and_mask_eq_match_iff_wellFormed hrow w).2 ⟨hsame ▸ hread.op, hwf⟩
  case unique =>
    obtain ⟨hop, -⟩ := (and_mask_eq_match_iff_wellFormed hrow w).1 hw
    obtain ⟨hop', -⟩ := (and_mask_eq_match_iff_wellFormed hrow' w).1 hw'
    exact opcodeTable_opcode_injective row hrow row' hrow' (hop.symm.trans hop')

/-- Settles O4: each row's mask is, field by field, the format of its opcode, and each such opcode has a row. -/
theorem formatsAgreeWithMatchAndMask : Obligations.FormatsAgreeWithMatchAndMask :=
  wellFormed_iff_exists_row

/-- Settles O10: a word that matches no row, as 0 does, is not well-formed, so the decoder refuses it. -/
theorem wordOfNoRowRaisesIllegalCommand : Obligations.WordOfNoRowRaisesIllegalCommand := by
  intro s w hr hu hw
  have hwf : (Fields.ofWord w).wellFormed = false := by
    obtain rfl | hnone := hw
    · decide
    · rw [Bool.eq_false_iff, Ne, wellFormed_iff_exists_row]
      exact fun ⟨row, hrow, h⟩ => hnone row hrow h
  obtain ⟨e, he⟩ := decodeWord_of_not_wellFormed hwf
  refine ⟨?_, rfl⟩
  rw [step_of_running hr hu, runCommand, he, endCommand_error, State.raise_eq_fails rfl]

end Sys2Proof.Proofs
end

section
/-! O20, O21, O22, O23, O25. The field commands at the defaults: each outcome is an equation of the section that settles
O57, taken at `Config.parameters`; and for all parameters every result of a field command is below the modulus (R90). -/

namespace Sys2Proof.Machine

open Sys2Proof.Spec

/-! Inverses in `[0, q)` (R95) -/

/-- A product with a factor that is 0 mod `q` is 0, so a factor of a product 1 is at least 1. -/
theorem one_le_of_mul_mod_eq_one {q x v : Nat} (h : x * v % q = 1) : 1 ≤ v := by
  rw [Nat.one_le_iff_ne_zero]
  rintro rfl
  simp at h

/-- An inverse mod `q` below `q` is the only one: `u = u·(x·v) = (x·u)·v = v`. -/
theorem inverse_mod_unique {q x u v : Nat} (hu : u < q) (hv : v < q) (hxu : x * u % q = 1) (hxv : x * v % q = 1) :
    u = v := by
  have hq : 1 % q = 1 := by rw [← hxu, Nat.mod_mod]
  have hxu' : x * u ≡ 1 [MOD q] := hxu.trans hq.symm
  have hxv' : x * v ≡ 1 [MOD q] := hxv.trans hq.symm
  have huv : u ≡ v [MOD q] :=
    calc u = u * 1 := (mul_one u).symm
      _ ≡ u * (x * v) [MOD q] := hxv'.symm.mul_left u
      _ = x * u * v := by ring
      _ ≡ 1 * v [MOD q] := hxu'.mul_right v
      _ = v := one_mul v
  exact huv.eq_of_lt_of_lt hu hv

/-! Results are canonical (R90) -/

/-- The command ends, and without an error only with a number below the modulus in `rd`. -/
def ResultIsCanonical (k : Parameters) (i : Instr) (rd : RIdx) (s : State) : Prop :=
  ∃ t, commandMeaning k i s = .next t ∧ (t.error = false → t.r[rd].toNat < k.curve.p)

section
variable {k : Parameters} {i : Instr} {rd rs1 rs2 : RIdx} {s : State}

theorem ResultIsCanonical.of_fails {e : ErrorKind} (h : commandMeaning k i s = .next (fails s e)) :
    ResultIsCanonical k i rd s :=
  ⟨_, h, nofun⟩

theorem ResultIsCanonical.of_writesNumber {v : Nat} (hv : v < k.curve.p)
    (h : commandMeaning k i s = .next (writesNumber s rd v)) : ResultIsCanonical k i rd s := by
  refine ⟨_, h, fun _ => ?_⟩
  have hword : (s.r.set rd (BitVec.ofNat 256 v))[rd].toNat ≤ v := by simp [Nat.mod_le]
  exact hword.trans_lt hv

/-- Two field operands are both in range, or one is not. -/
theorem operands_lt_or_le (k : Parameters) (s : State) (rs1 rs2 : RIdx) :
    (s.r[rs1].toNat < k.curve.p ∧ s.r[rs2].toNat < k.curve.p) ∨
      (k.curve.p ≤ s.r[rs1].toNat ∨ k.curve.p ≤ s.r[rs2].toNat) := by
  omega

theorem fadd_resultIsCanonical : ResultIsCanonical k (.fadd rd rs1 rs2) rd s := by
  obtain ⟨hx, hy⟩ | h := operands_lt_or_le k s rs1 rs2
  · exact .of_writesNumber (Nat.mod_lt _ (parameters_p_pos k)) (fadd_of_lt k rd hx hy)
  · exact .of_fails (fadd_of_le k rd h)

theorem fsub_resultIsCanonical : ResultIsCanonical k (.fsub rd rs1 rs2) rd s := by
  obtain ⟨hx, hy⟩ | h := operands_lt_or_le k s rs1 rs2
  · refine .of_writesNumber ?_ (fsub_of_lt k rd hx hy)
    split_ifs <;> omega
  · exact .of_fails (fsub_of_le k rd h)

theorem fmul_resultIsCanonical : ResultIsCanonical k (.fmul rd rs1 rs2) rd s := by
  obtain ⟨hx, hy⟩ | h := operands_lt_or_le k s rs1 rs2
  · exact .of_writesNumber (Nat.mod_lt _ (parameters_p_pos k)) (fmul_of_lt k rd hx hy)
  · exact .of_fails (fmul_of_le k rd h)

theorem finv_resultIsCanonical : ResultIsCanonical k (.finv rd rs1) rd s := by
  obtain hx | h := lt_or_ge s.r[rs1].toNat k.curve.p
  · by_cases h0 : s.r[rs1].toNat = 0
    · exact .of_fails (finv_of_zero k rd h0)
    · exact .of_writesNumber (Nat.mod_lt _ (parameters_p_pos k)) (finv_of_lt k rd hx h0)
  · exact .of_fails (finv_of_le k rd h)

theorem fsqrt_resultIsCanonical : ResultIsCanonical k (.fsqrt rd rs1) rd s := by
  obtain hx | h := lt_or_ge s.r[rs1].toNat k.curve.p
  · by_cases hsq : ∃ u, u * u % k.curve.p = s.r[rs1].toNat
    · exact .of_writesNumber (Nat.mod_lt _ (parameters_p_pos k)) (fsqrt_of_square k rd hx hsq)
    · exact .of_fails (fsqrt_of_not_square k rd hx hsq)
  · exact .of_fails (fsqrt_of_le k rd h)

theorem oncurve_resultIsCanonical : ResultIsCanonical k (.oncurve rd rs1 rs2) rd s := by
  have hp := k.admissible.p_prime.one_lt
  obtain ⟨hx, hy⟩ | h := operands_lt_or_le k s rs1 rs2
  · refine .of_writesNumber ?_ (oncurve_of_lt k hx hy rd)
    split_ifs <;> omega
  · exact .of_fails (oncurve_of_le k h rd)

end

end Sys2Proof.Machine

namespace Sys2Proof.Proofs

open Sys2Proof.Machine Sys2Proof.Spec

/-- Settles O20: the outcomes of `FADD` in and out of range, at the defaults. -/
theorem faddAddsModP : Obligations.FaddAddsModP := by
  intro rd rs1 rs2 s
  rw [← commandMeaning_default]
  exact ⟨decodeWord_encodeInstr (.fadd rd rs1 rs2), fadd_of_lt Config.parameters rd, fadd_of_le Config.parameters rd⟩

/-- Settles O21: the outcomes of `FSUB` in and out of range, at the defaults. -/
theorem fsubSubtractsModP : Obligations.FsubSubtractsModP := by
  intro rd rs1 rs2 s
  rw [← commandMeaning_default]
  exact ⟨decodeWord_encodeInstr (.fsub rd rs1 rs2), fsub_of_lt Config.parameters rd, fsub_of_le Config.parameters rd⟩

/-- Settles O22: the outcomes of `FMUL` in and out of range, at the defaults. -/
theorem fmulMultipliesModP : Obligations.FmulMultipliesModP := by
  intro rd rs1 rs2 s
  rw [← commandMeaning_default]
  exact ⟨decodeWord_encodeInstr (.fmul rd rs1 rs2), fmul_of_lt Config.parameters rd, fmul_of_le Config.parameters rd⟩

/-- Settles O23: `x^(p−2) mod p` is an inverse by Fermat's theorem, and inverses below `p` are unique. -/
theorem finvWritesTheInverse : Obligations.FinvWritesTheInverse := by
  intro rd rs1 s
  rw [← commandMeaning_default]
  refine ⟨decodeWord_encodeInstr (.finv rd rs1), fun hx h0 => ?inverse, finv_of_zero Config.parameters rd,
    finv_of_le Config.parameters rd⟩
  have hv : s.r[rs1].toNat ^ (p - 2) % p < p := Nat.mod_lt _ curve_p_pos
  have hinv := mul_pow_sub_two_mod prime_curve_p hx h0
  exact ⟨_, rfl, one_le_of_mul_mod_eq_one hinv, hv, hinv, fun u hu hxu => inverse_mod_unique hu hv hxu hinv,
    finv_of_lt Config.parameters rd hx h0⟩

/-- Settles O25: an ending of a field command that is no error has written a number below `p`. -/
theorem fieldResultsAreCanonical : Obligations.FieldResultsAreCanonical := by
  rintro i rd s t ⟨rs1, rs2, hi⟩ ht herror
  have hcanonical : ResultIsCanonical Config.parameters i rd s := by
    obtain rfl | rfl | rfl | rfl | rfl | rfl := hi
    · exact fadd_resultIsCanonical
    · exact fsub_resultIsCanonical
    · exact fmul_resultIsCanonical
    · exact finv_resultIsCanonical
    · exact fsqrt_resultIsCanonical
    · exact oncurve_resultIsCanonical
  obtain ⟨u, hu, hlt⟩ := hcanonical
  rw [commandMeaning_default, ht] at hu
  cases hu
  exact hlt herror

end Sys2Proof.Proofs
end

section
/-! O26 to O33. The point commands at the defaults: each outcome is an equation of the section that settles O58, or a part of
O58 itself, taken at `Config.parameters`, whose curve has no singular point; and two facts of the negator and of the curve of
R7: negating twice gives the point back (R112), and no point has `y = 0` (R117). -/

namespace Sys2Proof.Machine

open Sys2Proof.Spec Sys2Proof.Tests

/-- The model's well-formed Points are the spec's, on the curve of R7 (R11, R23). -/
theorem wellFormed_iff (P : Point) : WellFormed P ↔ P.wf Config.curve = true :=
  wellFormedOf_iff curve_p_pos P

/-- `PNEG` writes the negative (R122). -/
theorem pneg_writes_ptNeg (k : Parameters) (pd ps1 : PIdx) (s : State) :
    commandMeaning k (.pneg pd ps1) s = .next (writesThePoint s pd (ptNeg k.curve s.pt[ps1])) :=
  rfl

/-- The negator is its own inverse, as the group's negation is (R112). -/
theorem ptNeg_ptNeg {c : Curve} [Fact c.p.Prime] (hc : CurveSound c) {P : Point} (hP : P.wf c = true) :
    ptNeg c (ptNeg c P) = P := by
  obtain ⟨hw, hn⟩ := groupPoint_neg hc hP
  obtain ⟨hw', hn'⟩ := groupPoint_neg hc hw
  exact groupPoint_injective hc hw' hP (by rw [hn', hn, neg_neg])

/-- The abscissa of a point with `y = 0` would be a root of the cubic of R7's curve, which has none (R117). -/
theorem ordinate_ne_zero {x y : Word256} (h : Point.wf Config.curve (.aff x y) = true) : y.toNat ≠ 0 := by
  intro hy
  obtain ⟨-, -, hon⟩ := wf_aff_iff.1 h
  have heq := (WeierstrassCurve.Affine.equation_iff _ _).1 ((onCurveXY_iff curve_sound _ _).1 hon)
  simp only [weierstrass, hy] at heq
  exact cubic_no_root curve_p_prime x.toNat (by linear_combination -heq)

end Sys2Proof.Machine

namespace Sys2Proof.Proofs

open Sys2Proof.Machine Sys2Proof.Spec Sys2Proof.Tests

/-- Settles O26: neither command looks at the state, and `G` is the base point of R7's record. -/
theorem pinfAndPbaseLoadConstants : Obligations.PinfAndPbaseLoadConstants := fun pd _ =>
  ⟨decodeWord_encodeInstr (.pinf pd), decodeWord_encodeInstr (.pbase pd), rfl, rfl⟩

/-- Settles O27: the three outcomes of `PSET`, at the defaults. -/
theorem psetWritesOnlyCurvePoints : Obligations.PsetWritesOnlyCurvePoints := by
  intro pd rs1 rs2 s
  rw [← commandMeaning_default]
  exact ⟨decodeWord_encodeInstr (.pset pd rs1 rs2), fun hx hy => pset_of_onCurve Config.parameters hx hy pd,
    fun hx hy => pset_of_not_onCurve Config.parameters hx hy pd, fun h => pset_of_le Config.parameters h pd⟩

/-- Settles O28: the outcomes of `ONCURVE` in and out of range, at the defaults; the numbers 1 and 0 as words. -/
theorem oncurveAnswersTheEquation : Obligations.OncurveAnswersTheEquation := by
  intro rd rs1 rs2 s
  rw [← commandMeaning_default]
  refine ⟨decodeWord_encodeInstr (.oncurve rd rs1 rs2), fun hx hy => ?_, fun h => oncurve_of_le Config.parameters h rd⟩
  rw [oncurve_of_lt Config.parameters hx hy rd, writesNumber, apply_ite (BitVec.ofNat 256)]
  rfl

/-- Settles O29: `PNEG` writes `pt_neg` (`ptNeg_aff`), which is its own inverse (`ptNeg_ptNeg`). -/
theorem pnegNegatesThePoint : Obligations.PnegNegatesThePoint := by
  intro pd ps1 s
  rw [← commandMeaning_default, pneg_writes_ptNeg]
  refine ⟨decodeWord_encodeInstr (.pneg pd ps1), fun hP => by rw [hP]; rfl, fun x y hP hwf => ?affine⟩
  have := curve_p_prime
  have hback : ptNeg Config.parameters.curve (ptNeg Config.parameters.curve (.aff x y)) = .aff x y :=
    ptNeg_ptNeg curve_sound ((wellFormed_iff _).1 hwf)
  obtain ⟨y', hneg, hy', hwf'⟩ := ptNeg_aff Config.parameters hwf
  rw [hneg] at hback
  exact ⟨y', hy', hwf', by rw [hP, hneg], hback⟩

/-- Settles O30: the sum of O58, at the defaults. -/
theorem paddWritesTheSum : Obligations.PaddWritesTheSum := by
  intro pd ps1 ps2 s
  obtain ⟨-, -, -, -, hsum, -⟩ := pointCommandsOnEveryCurve
  rw [← commandMeaning_default]
  exact ⟨decodeWord_encodeInstr (.padd pd ps1 ps2),
    fun h1 h2 => (hsum Config.parameters pd ps1 ps2 s witness_prime_order.1 h1 h2).1⟩

/-- Settles O31: at the defaults `PDBL` is `PADD` of the point with itself (R116), which writes the sum of O30. -/
theorem pdblWritesTheDouble : Obligations.PdblWritesTheDouble := by
  intro pd ps1 s
  obtain ⟨-, -, -, -, hsum, -⟩ := pointCommandsOnEveryCurve
  simp only [← commandMeaning_default]
  refine ⟨decodeWord_encodeInstr (.pdbl pd ps1), fun h => ?_⟩
  obtain ⟨⟨Q, hQ, -, hpadd⟩, hpdbl⟩ := hsum Config.parameters pd ps1 ps1 s witness_prime_order.1 h h
  exact ⟨hpdbl, Q, hQ, hpdbl.trans hpadd⟩

/-- Settles O32: the laws of Mathlib's group of the curve (`groupLaws`), at the defaults. -/
theorem pointAdditionIsAGroup : Obligations.PointAdditionIsAGroup := by
  have := curve_p_prime
  have laws := groupLaws curve_sound
  refine ⟨laws, fun P Q R hP hQ hR => ?_⟩
  rw [wellFormed_iff] at hP hQ hR
  exact ⟨laws.add_inf P hP, laws.add_neg P hP, laws.add_assoc P Q R hP hQ hR, laws.add_comm P Q hP hQ⟩

/-- Settles O33: the cubic of the curve of R7 has no root mod `p` (`ordinate_ne_zero`). -/
theorem noPointHasZeroOrdinate : Obligations.NoPointHasZeroOrdinate := fun _ _ h =>
  ordinate_ne_zero ((wellFormed_iff _).1 h)

end Sys2Proof.Proofs
end

section
/-! O34, O35. Scalar multiplication by its multiples: the reduction of the scalar mod `n` (R140, R141), and the laws of R143 on
every curve of prime order. -/

namespace Sys2Proof.Machine

/-- `scalar_mult` looks at its scalar mod `n` only (R140). -/
theorem scalarMult_mod (c : Curve) (j : Nat) (P : Point) : scalarMult c (j % c.n) P = scalarMult c j P := by
  simp only [scalarMult, Nat.mod_mod]

/-- `n` reduces to 0, for which there is no iteration (R140). -/
theorem scalarMult_order (c : Curve) (P : Point) : scalarMult c c.n P = .inf :=
  if_pos (Nat.mod_self c.n)

end Sys2Proof.Machine

namespace Sys2Proof.Spec

open Sys2Proof.Machine Sys2Proof.Tests

section
variable {k : Parameters} (hk : PrimeOrder k.curve)
include hk

/-- The multiple depends on the scalar mod `n` only (R141). -/
theorem PrimeOrder.multipleOf_mod {P : Point} (hP : P.wf k.curve = true) (j : Nat) :
    multipleOf k.curve (j % k.curve.n) P = multipleOf k.curve j P := by
  rw [← hk.scalarMult_eq hP, ← hk.scalarMult_eq hP, scalarMult_mod]

/-- `scalar_mult(j, P)` in the group: `j` times the element of `P`, the scalar not reduced (R141). -/
theorem PrimeOrder.scalarMult_group [Fact k.curve.p.Prime] {P : Point} (hP : P.wf k.curve = true) (j : Nat) :
    (scalarMult k.curve j P).wf k.curve = true ∧
      groupPoint k.curve (scalarMult k.curve j P) = j • groupPoint k.curve P := by
  rw [hk.scalarMult_eq hP]
  exact multipleOf_group hk.curveSound hP j

theorem PrimeOrder.scalarMult_one {P : Point} (hP : P.wf k.curve = true) : scalarMult k.curve 1 P = P :=
  hk.scalarMult_eq hP 1

theorem PrimeOrder.scalarMult_two {P : Point} (hP : P.wf k.curve = true) :
    scalarMult k.curve 2 P = ptDbl k.curve P := by
  have := parameters_p_prime k
  rw [ptDbl_eq_ptAdd_self hk.curveSound hP]
  exact hk.scalarMult_eq hP 2

/-- `(n − 1)·P = n·P − P = −P`. -/
theorem PrimeOrder.scalarMult_order_sub_one {P : Point} (hP : P.wf k.curve = true) :
    scalarMult k.curve (k.curve.n - 1) P = ptNeg k.curve P := by
  have := parameters_p_prime k
  obtain ⟨hw, hg⟩ := hk.scalarMult_group hP (k.curve.n - 1)
  obtain ⟨hw', hg'⟩ := groupPoint_neg hk.curveSound hP
  have hsum : (k.curve.n - 1) • groupPoint k.curve P + groupPoint k.curve P = 0 := by
    rw [← succ_nsmul, Nat.sub_add_cancel k.admissible.n_prime.one_le, hk.nsmul_groupPoint hP]
  exact groupPoint_injective hk.curveSound hw hw' (by rw [hg, hg', eq_neg_of_add_eq_zero_left hsum])

/-- `scalar_mult` distributes over `pt_add`: the group is commutative (R143). -/
theorem PrimeOrder.scalarMult_ptAdd {P Q : Point} (hP : P.wf k.curve = true) (hQ : Q.wf k.curve = true) (j : Nat) :
    scalarMult k.curve j (ptAdd k.curve P Q)
      = ptAdd k.curve (scalarMult k.curve j P) (scalarMult k.curve j Q) := by
  have := parameters_p_prime k
  have hc := hk.curveSound
  obtain ⟨hwPQ, hgPQ⟩ := groupPoint_add hc hP hQ
  obtain ⟨hwP, hgP⟩ := hk.scalarMult_group hP j
  obtain ⟨hwQ, hgQ⟩ := hk.scalarMult_group hQ j
  obtain ⟨hwl, hgl⟩ := hk.scalarMult_group hwPQ j
  obtain ⟨hwr, hgr⟩ := groupPoint_add hc hwP hwQ
  exact groupPoint_injective hc hwl hwr (by rw [hgl, hgr, hgPQ, hgP, hgQ, nsmul_add])

/-- A multiple of a multiple is the multiple by the product (R143). -/
theorem PrimeOrder.scalarMult_mul {P : Point} (hP : P.wf k.curve = true) (i j : Nat) :
    scalarMult k.curve (i * j) P = scalarMult k.curve i (scalarMult k.curve j P) := by
  have := parameters_p_prime k
  obtain ⟨hw, hg⟩ := hk.scalarMult_group hP (i * j)
  obtain ⟨hwj, hgj⟩ := hk.scalarMult_group hP j
  obtain ⟨hwi, hgi⟩ := hk.scalarMult_group hwj i
  exact groupPoint_injective hk.curveSound hw hwi (by rw [hg, hgi, hgj, mul_nsmul'])

end

end Sys2Proof.Spec

namespace Sys2Proof.Proofs

open Sys2Proof.Machine Sys2Proof.Spec Sys2Proof.Tests

/-- Settles O34: the command of O59, at the defaults, with the multiple of the reduced scalar
(`PrimeOrder.multipleOf_mod`). -/
theorem smulWritesTheMultiple : Obligations.SmulWritesTheMultiple := by
  intro pd rs1 ps2 s
  obtain ⟨hsmul, -⟩ := scalarCommandsOnEveryCurve Config.parameters witness_prime_order
  refine ⟨decodeWord_encodeInstr (.smul pd rs1 ps2), fun hP => ?_⟩
  obtain ⟨hnext, hwf⟩ := hsmul pd rs1 ps2 s hP
  have hmod : multiple (s.r[rs1].toNat % n) s.pt[ps2] = multiple s.r[rs1].toNat s.pt[ps2] :=
    witness_prime_order.multipleOf_mod ((wellFormed_iff _).1 hP) _
  rw [← commandMeaning_default, hmod]
  exact ⟨hnext, rfl, hwf⟩

/-- Settles O35: the laws of the multiples on every curve of prime order, at the defaults. -/
theorem scalarMultiplicationLaws : Obligations.ScalarMultiplicationLaws := by
  have hk : PrimeOrder Config.parameters.curve := witness_prime_order
  have hG : G.wf Config.curve = true := basePoint_wf
  refine ⟨scalarMult_order Config.curve G, hk.scalarMult_order_sub_one hG, hk.scalarMult_one hG, hk.scalarMult_two hG,
    fun j P Q hP hQ => ?distributes, fun i j => ?associates⟩
  case distributes => exact hk.scalarMult_ptAdd ((wellFormed_iff P).1 hP) ((wellFormed_iff Q).1 hQ) j
  case associates => exact (scalarMult_mod Config.curve (i * j) G).trans (hk.scalarMult_mul hG i j)

end Sys2Proof.Proofs
end

section
/-! O36, O38. Key agreement: `KEYGEN` at the defaults, whose curve has prime order; the shared point of two key pairs, and the
secret that `ECDH` takes from it on either side (R151, R153, R154). -/

namespace Sys2Proof.Spec

open Sys2Proof.Machine Sys2Proof.Tests

section
variable {k : Parameters} (hk : PrimeOrder k.curve)
include hk

/-- The shared point: `a·(b·P)`, a multiple of the other side's public point, is `(a·b mod n)·P` (R154). -/
theorem PrimeOrder.multipleOf_multipleOf {P : Point} (hP : P.wf k.curve = true) (a b : Nat) :
    multipleOf k.curve a (multipleOf k.curve b P) = multipleOf k.curve (a * b % k.curve.n) P := by
  have hb := hk.multipleOf_wf hP b
  calc multipleOf k.curve a (multipleOf k.curve b P)
      = scalarMult k.curve a (scalarMult k.curve b P) := by rw [hk.scalarMult_eq hP, hk.scalarMult_eq hb]
    _ = scalarMult k.curve (a * b) P := (hk.scalarMult_mul hP a b).symm
    _ = multipleOf k.curve (a * b) P := hk.scalarMult_eq hP _
    _ = multipleOf k.curve (a * b % k.curve.n) P := (hk.multipleOf_mod hP _).symm

/-- A public key `d·G` is a well-formed point other than infinity (R151). -/
theorem PrimeOrder.publicKey_wellFormed {d : Nat} (h1 : 1 ≤ d) (h2 : d < k.curve.n) :
    multipleOf k.curve d (basePoint k.curve) ≠ .inf ∧
      WellFormedOf k.curve (multipleOf k.curve d (basePoint k.curve)) :=
  ⟨hk.multipleOf_base_ne_inf h1 h2,
    (wellFormedOf_iff (parameters_p_pos k) _).2 (hk.multipleOf_wf (parameters_basePoint_wf k) d)⟩

end

end Sys2Proof.Spec

namespace Sys2Proof.Proofs

open Sys2Proof.Machine Sys2Proof.Spec Sys2Proof.Tests

/-- One side of a key agreement, with the scalar `a` and the other side's public point `b·G`: `ECDH` ends without an error and
leaves the abscissa of `(a·b mod n)·G` in `IKM` (R153, R154). -/
theorem ecdh_of_keyPair {a b : Nat} (ha : 1 ≤ a ∧ a < n) (hb : 1 ≤ b ∧ b < n) {rs1 : RIdx} {ps2 : PIdx} {s : State}
    (hm : s.ikm.wf) (hr : s.r[rs1].toNat = a) (hP : s.pt[ps2] = scalarMult Config.curve b G) :
    ∃ (x y : Word256) (t : State), multiple (a * b % n) G = .aff x y ∧ exec (.ecdh rs1 ps2) s = .next t ∧
      t.error = false ∧ t.ikmLen = 32 ∧ ∀ off < 32, Memory.read t.ikm off = bigEndian x.toNat off := by
  have hk : PrimeOrder Config.parameters.curve := witness_prime_order
  have hpub : s.pt[ps2] = multiple b G := hP.trans (hk.scalarMult_eq basePoint_wf b)
  obtain ⟨hne, hwf⟩ := hk.publicKey_wellFormed hb.1 hb.2
  have hmod : s.r[rs1].toNat % n ≠ 0 := by
    rw [hr, Nat.mod_eq_of_lt ha.2]
    exact Nat.one_le_iff_ne_zero.1 ha.1
  obtain ⟨-, -, -, -, hsecret⟩ := ecdhDeliversTheSharedSecret rs1 ps2 s
  obtain ⟨x, y, t, hQ, ht, hframe, -, hread⟩ := hsecret (hpub ▸ hne) (hpub ▸ hwf) hmod hm
  rw [hr, hpub] at hQ
  exact ⟨x, y, t, (hk.multipleOf_multipleOf basePoint_wf a b).symm.trans hQ, ht, congrArg State.error hframe,
    congrArg State.ikmLen hframe, fun off hoff => (hread off).trans (if_pos hoff)⟩

/-- Settles O36: at the defaults `KEYGEN` is that of O59, and every public key is well-formed. -/
theorem keygenWritesAKeyPair : Obligations.KeygenWritesAKeyPair := by
  intro rd pd s
  have hk : PrimeOrder Config.parameters.curve := witness_prime_order
  obtain ⟨-, hkeygen, hdraws, -⟩ := scalarCommandsOnEveryCurve Config.parameters hk
  rw [← commandMeaning_default]
  refine ⟨decodeWord_encodeInstr (.keygen rd pd), ?draw, fun d h1 h2 => ?everyDraw⟩
  case draw =>
    obtain ⟨d, h1, h2, -, hnext⟩ := hkeygen rd pd s
    exact ⟨d, h1, h2, hnext⟩
  case everyDraw =>
    obtain ⟨hne, hwf⟩ := hk.publicKey_wellFormed h1 h2
    exact ⟨hne, hwf, hdraws rd pd s d h1 h2⟩

/-- Settles O38: both sides take their secret from the one point `(a·b mod n)·G = (b·a mod n)·G`. -/
theorem ecdhIsSymmetric : Obligations.EcdhIsSymmetric := by
  intro a b ra rb pA pB s s' ha1 han hb1 hbn hm hm' hra hpB hrb hpA
  obtain ⟨x, y, t, hQ, ht, herr, hlen, hread⟩ := ecdh_of_keyPair ⟨ha1, han⟩ ⟨hb1, hbn⟩ hm hra hpB
  obtain ⟨x', y', t', hQ', ht', herr', hlen', hread'⟩ := ecdh_of_keyPair ⟨hb1, hbn⟩ ⟨ha1, han⟩ hm' hrb hpA
  obtain ⟨rfl, rfl⟩ : x = x' ∧ y = y' := by
    rw [mul_comm, hQ] at hQ'
    exact Point.aff.inj hQ'
  exact ⟨t, t', x, y, ht, ht', herr, herr', hlen, hlen', hQ, fun off hoff => ⟨hread off hoff, hread' off hoff⟩⟩

end Sys2Proof.Proofs
end

section
/-! O24, O39, O40, O41. The codec at the defaults: `FSQRT` and `DECODE` are the cases of O57 and O60 at `Config.parameters`;
and the bytes `ENCODE` leaves in `ENC`, a leading byte and then one or two 32-byte integers (R160, R161). -/

namespace Sys2Proof.Machine

open Sys2Proof.Spec

/-! Byte strings in a buffer (R10, R12) -/

theorem memWrite_append : ∀ (a b : List Byte) (m : Memory) (off : Nat),
    memWrite m off (a ++ b) = memWrite (memWrite m off a) (off + a.length) b
  | [], _, _, _ => rfl
  | v :: vs, b, m, off => by
    rw [List.cons_append, memWrite, memWrite, memWrite_append vs b, List.length_cons, Nat.add_assoc, Nat.add_comm 1]

/-- The bytes of a buffer after a 32-byte integer has been written at an offset (R51). -/
theorem read_memWrite_i2osp32_at {m : Memory} (hm : m.wf) (off : Nat) (v : Word256) (a : Nat) :
    Memory.read (memWrite m off (i2osp32 v)) a
      = if off ≤ a ∧ a < off + 32 then bigEndian v.toNat (a - off) else Memory.read m a := by
  rw [read_memWrite a _ off hm, i2osp32_length]
  split_ifs with h
  · exact i2osp32_getD v (by omega)
  · rfl

/-- The bytes of the compressed form, written from offset 0: a leading byte, then `X` (R160). -/
theorem read_memWrite_compressed {m : Memory} (hm : m.wf) (lead : Byte) (x : Word256) (off : Nat) :
    Memory.read (memWrite m 0 (lead :: i2osp32 x)) off
      = if off = 0 then lead else if off < 33 then bigEndian x.toNat (off - 1) else Memory.read m off := by
  rw [memWrite, read_memWrite_i2osp32_at (Memory.wf_write 0 lead hm), Memory.read_write 0 off lead hm]
  obtain rfl | h0 := eq_or_ne off 0
  · rfl
  · simp only [if_neg h0]
    exact if_congr (by omega) rfl rfl

/-- The bytes of the uncompressed form, written from offset 0: a leading byte, then `X`, then `Y` (R160). -/
theorem read_memWrite_uncompressed {m : Memory} (hm : m.wf) (lead : Byte) (x y : Word256) (off : Nat) :
    Memory.read (memWrite m 0 (lead :: (i2osp32 x ++ i2osp32 y))) off
      = if off = 0 then lead else if off < 33 then bigEndian x.toNat (off - 1)
        else if off < 65 then bigEndian y.toNat (off - 33) else Memory.read m off := by
  rw [← List.cons_append, memWrite_append, List.length_cons, i2osp32_length,
    read_memWrite_i2osp32_at (wf_memWrite _ 0 hm), read_memWrite_compressed hm]
  by_cases h : off < 33
  · rw [if_neg (by omega)]
    simp only [if_pos h]
  · simp only [if_neg (show off ≠ 0 by omega), if_neg h]
    exact if_congr (by omega) rfl rfl

/-- The leading byte of the compressed form (R160). -/
theorem byteOf_two_add_parity (y : Nat) : byteOf (0x02 + y % 2) = if y % 2 = 0 then 0x02 else 0x03 := by
  obtain h | h := Nat.mod_two_eq_zero_or_one y <;> rw [h] <;> rfl

/-! The command `ENCODE` (R161) -/

section
variable (k : Parameters) {ps1 : PIdx} {s : State}

theorem encode_of_inf (compressed : Bool) (h : s.pt[ps1] = .inf) :
    commandMeaning k (.encode ps1 compressed) s = .next (fails s .infinityNotAllowed) := by
  simp only [commandMeaning, execEncode, pointOperand, State.point, h, encodePoint]
  exact endCommand_fails rfl

/-- `ENCODE` writes the point's byte string to `ENC` and its length to `ENC_LEN`, and nothing else (R161). -/
theorem encode_writes {compressed : Bool} {bytes : List Byte} (h : encodePoint s.pt[ps1] compressed = .ok bytes) :
    ∃ t, commandMeaning k (.encode ps1 compressed) s = .next t ∧ t.enc = memWrite s.enc 0 bytes ∧
      t = succeeds { s with enc := t.enc, encLen := if compressed then 33 else 65 } := by
  have hlen : BitVec.ofNat 32 bytes.length = if compressed then 33#32 else 65#32 := by
    rw [encodePoint_length h, apply_ite (BitVec.ofNat 32)]
  refine ⟨_, encode_of_ok k ps1 compressed h, rfl, ?_⟩
  rw [State.deliver, hlen]
  rfl

end

end Sys2Proof.Machine

namespace Sys2Proof.Proofs

open Sys2Proof.Machine Sys2Proof.Spec

/-- Settles O24: the outcomes of `FSQRT` at the defaults; the power is a root of a square (`sq_pow_mod`). -/
theorem fsqrtWritesASquareRoot : Obligations.FsqrtWritesASquareRoot := by
  intro rd rs1 s
  have := parameters_p_prime Config.parameters
  rw [← commandMeaning_default]
  exact ⟨decodeWord_encodeInstr (.fsqrt rd rs1),
    fun hx h => ⟨_, rfl, sq_pow_mod Config.parameters.admissible.p_mod_four hx h,
      fsqrt_of_square Config.parameters rd hx h⟩,
    fsqrt_of_not_square Config.parameters rd, fsqrt_of_le Config.parameters rd⟩

/-- Settles O39: `ENCODE` writes the byte string of the point (`encode_writes`), read byte by byte in either form. -/
theorem encodeWritesTheSec1Form : Obligations.EncodeWritesTheSec1Form := by
  intro ps1 c s
  rw [← commandMeaning_default]
  refine ⟨decodeWord_encodeInstr (.encode ps1 c), encode_of_inf Config.parameters c, fun x y hP _ hm => ?_⟩
  cases c with
  | true =>
    obtain ⟨t, ht, henc, hframe⟩ := encode_writes Config.parameters (compressed := true) (by rw [hP]; rfl)
    refine ⟨t, ht, henc ▸ wf_memWrite _ 0 hm, hframe, fun _ off => ?_, nofun⟩
    rw [henc, read_memWrite_compressed hm, byteOf_two_add_parity]
  | false =>
    obtain ⟨t, ht, henc, hframe⟩ := encode_writes Config.parameters (compressed := false) (by rw [hP]; rfl)
    refine ⟨t, ht, henc ▸ wf_memWrite _ 0 hm, hframe, nofun, fun _ off => ?_⟩
    rw [henc, read_memWrite_uncompressed hm]
    rfl

/-- Settles O40: the outcomes of `DECODE` by length and leading byte (O60), at the defaults. -/
theorem decodeReadsTheSec1Form : Obligations.DecodeReadsTheSec1Form := by
  intro pd s
  obtain ⟨hlength, huncompressed, hcompressed⟩ := codecOnEveryCurve.1 Config.parameters pd s
  rw [← commandMeaning_default]
  refine ⟨decodeWord_encodeInstr (.decode pd), hlength, fun h65 => ⟨fun h => ?taken, fun h => ?refused⟩, hcompressed⟩
  case taken => exact (huncompressed h65).trans (congrArg _ (if_pos h))
  case refused => exact (huncompressed h65).trans (congrArg _ (if_neg h))

/-- Settles O41: the round trip of O60, at the defaults. -/
theorem decodeOfEncodeGivesThePoint : Obligations.DecodeOfEncodeGivesThePoint := by
  intro ps pd c s hwf hne hm
  simp only [← commandMeaning_default]
  exact codecOnEveryCurve.2 Config.parameters ps pd c s hwf hne hm

end Sys2Proof.Proofs
end

section
/-! O42, O43. The command `HKDF` for all parameters: its checks in order (R181), and the bytes it leaves in `OKM`, those of
the blocks `t[1] ∥ t[2] ∥ …` (R180), which do not depend on `OKM_REQ` (R182). -/

namespace Sys2Proof.Machine

open Sys2Proof.Spec

/-! The inputs (R25) -/

theorem memRead_zero_eq_leading (m : Memory) (k : Nat) : memRead m 0 k = leading m k := by
  refine List.ext_getElem (by simp) fun i hi _ => ?_
  have hread := memRead_getD m k 0 i (by simpa using hi)
  rw [List.getD_eq_getElem _ _ hi, Nat.zero_add] at hread
  rw [hread, List.getElem_map, List.getElem_range]

/-- The value of a buffer is its first `B_LEN` bytes, where the length is within the capacity (R25). -/
theorem bufferValue_eq_some_iff {k : Capacities} {s : State} {b : Buf} {bytes : List Byte} :
    bufferValue k s b = some bytes ↔
      (s.bufLen b).toNat ≤ b.cap k ∧ leading (s.buf b) (s.bufLen b).toNat = bytes := by
  rw [bufferValue, Option.ite_none_right_eq_some, Option.some.injEq, memRead_zero_eq_leading]

/-! The blocks (R180) -/

/-- `prk` of the spec is the model's extract step. -/
theorem hkdfExtract_eq_prk (s : State) :
    hkdfExtract Config.hmac (leading s.salt s.saltLen.toNat) (leading s.ikm s.ikmLen.toNat) = prk s := by
  have hempty : (leading s.salt s.saltLen.toNat).length = 0 ↔ s.saltLen = 0 := by
    rw [List.length_map, List.length_range]
    exact BitVec.toNat_inj (y := 0)
  simp only [hkdfExtract, zeros, prk, hempty]

theorem block_succ_length (s : State) (i : Nat) : (block s (i + 1)).length = 32 := Vector.length_toList

/-- No block depends on the length asked for (R182). -/
theorem block_okmReq (s : State) (L : Word32) : ∀ i, block { s with okmReq := L } i = block s i
  | 0 => rfl
  | i + 1 => by rw [block, block, block_okmReq s L i]

/-- The expand step from `t[i]` on is `t[i + 1] ∥ t[i + 2] ∥ …`, 32 bytes each (R180). -/
theorem hkdfExpand_getD (s : State) : ∀ blocks i off, off < 32 * blocks →
    (hkdfExpand Config.hmac (prk s) (leading s.info s.infoLen.toNat) blocks (i + 1) (block s i)).getD off 0
      = (block s (i + off / 32 + 1)).getD (off % 32) 0
  | 0, _, _, hoff => by omega
  | blocks + 1, i, off, hoff => by
    have hexpand : hkdfExpand Config.hmac (prk s) (leading s.info s.infoLen.toNat) (blocks + 1) (i + 1) (block s i)
        = block s (i + 1) ++ hkdfExpand Config.hmac (prk s) (leading s.info s.infoLen.toNat) blocks (i + 1 + 1)
            (block s (i + 1)) := rfl
    rw [hexpand]
    obtain h | h := lt_or_ge off 32
    · rw [List.getD_append _ _ _ _ (by rwa [block_succ_length]), Nat.div_eq_of_lt h, Nat.mod_eq_of_lt h, Nat.add_zero]
    · rw [List.getD_append_right _ _ _ _ (by rwa [block_succ_length]), block_succ_length,
        hkdfExpand_getD s blocks (i + 1) (off - 32) (by omega), ← Nat.mod_eq_sub_mod h,
        show i + 1 + (off - 32) / 32 = i + off / 32 by omega]

/-- The first `OKM_REQ` bytes of the blocks, what a successful `HKDF` delivers (R180). -/
def outputKeyingMaterial (s : State) : List Byte :=
  (hkdfExpand Config.hmac (prk s) (leading s.info s.infoLen.toNat) ((s.okmReq.toNat + 31) / 32) 1 []).take
    s.okmReq.toNat

/-- The function `hkdf` on the values of the three buffers. -/
theorem hkdf_leading (s : State) :
    hkdf Config.hmac (leading s.ikm s.ikmLen.toNat) (leading s.salt s.saltLen.toNat) (leading s.info s.infoLen.toNat)
        s.okmReq.toNat
      = if 8160 < s.okmReq.toNat then .error .outputTooLong else .ok (outputKeyingMaterial s) := by
  rw [hkdf, hkdfExtract_eq_prk]
  rfl

theorem outputKeyingMaterial_length (s : State) : (outputKeyingMaterial s).length = s.okmReq.toNat := by
  rw [outputKeyingMaterial, List.length_take, hkdfExpand_length]
  omega

theorem outputKeyingMaterial_getD {s : State} {off : Nat} (hoff : off < s.okmReq.toNat) :
    (outputKeyingMaterial s).getD off 0 = (block s (off / 32 + 1)).getD (off % 32) 0 := by
  have hexpand := hkdfExpand_getD s ((s.okmReq.toNat + 31) / 32) 0 off (by omega)
  rw [Nat.zero_add (off / 32)] at hexpand
  rw [← hexpand, outputKeyingMaterial, List.getD_eq_getElem?_getD, List.getElem?_take_of_lt hoff,
    ← List.getD_eq_getElem?_getD]
  rfl

/-! The command (R181) -/

theorem hkdfResult_of_not_fit {k : Capacities} {s : State} (h : ¬HkdfInputsFit k s) :
    hkdfResult Config.hmac k s = .error .bufferLength := by
  unfold hkdfResult
  split
  next hikm hsalt hinfo =>
    exact absurd ⟨(bufferValue_eq_some_iff.1 hikm).1, (bufferValue_eq_some_iff.1 hsalt).1,
      (bufferValue_eq_some_iff.1 hinfo).1⟩ h
  next => rfl

theorem hkdfResult_of_fit {k : Capacities} {s : State} (h : HkdfInputsFit k s) :
    hkdfResult Config.hmac k s
      = if 8160 < s.okmReq.toNat then .error .outputTooLong else .ok (s.deliver .okm (outputKeyingMaterial s)) := by
  obtain ⟨hikm, hsalt, hinfo⟩ := h
  have vikm : bufferValue k s .ikm = some (leading s.ikm s.ikmLen.toNat) := bufferValue_eq_some_iff.2 ⟨hikm, rfl⟩
  have vsalt : bufferValue k s .salt = some (leading s.salt s.saltLen.toNat) := bufferValue_eq_some_iff.2 ⟨hsalt, rfl⟩
  have vinfo : bufferValue k s .info = some (leading s.info s.infoLen.toNat) := bufferValue_eq_some_iff.2 ⟨hinfo, rfl⟩
  simp only [hkdfResult, vikm, vsalt, vinfo, hkdf_leading]
  split_ifs <;> rfl

section
variable (k : Parameters) {s : State}

theorem hkdf_of_not_fit (h : ¬HkdfInputsFit k.capacities s) :
    commandMeaning k .hkdf s = .next (fails s .bufferLength) := by
  simp only [commandMeaning, hkdfCommand, hkdfResult_of_not_fit h]
  exact endCommand_fails rfl

theorem hkdf_of_lt (h : HkdfInputsFit k.capacities s) (hL : 8160 < s.okmReq.toNat) :
    commandMeaning k .hkdf s = .next (fails s .outputTooLong) := by
  simp only [commandMeaning, hkdfCommand, hkdfResult_of_fit h, if_pos hL]
  exact endCommand_fails rfl

/-- `HKDF` writes its output to `OKM` and the output's length to `OKM_LEN`, and nothing else. -/
theorem hkdf_writes (h : HkdfInputsFit k.capacities s) (hL : s.okmReq.toNat ≤ 8160) :
    ∃ t, commandMeaning k .hkdf s = .next t ∧ t.okm = memWrite s.okm 0 (outputKeyingMaterial s) ∧
      t = succeeds { s with okm := t.okm, okmLen := s.okmReq } := by
  refine ⟨(s.deliver .okm (outputKeyingMaterial s)).endOk, ?_, rfl, ?_⟩
  · simp only [commandMeaning, hkdfCommand, hkdfResult_of_fit h, if_neg (not_lt.2 hL), endCommand_ok]
  · rw [State.deliver, outputKeyingMaterial_length, BitVec.ofNat_toNat, BitVec.setWidth_eq]
    rfl

/-- The bytes of `OKM` after `HKDF`, with what it leaves unchanged. -/
theorem hkdf_reads (h : HkdfInputsFit k.capacities s) (hL : s.okmReq.toNat ≤ 8160) (hm : s.okm.wf) :
    ∃ t, commandMeaning k .hkdf s = .next t ∧ t = succeeds { s with okm := t.okm, okmLen := s.okmReq } ∧ t.okm.wf ∧
      ∀ off, Memory.read t.okm off =
        if off < s.okmReq.toNat then (block s (off / 32 + 1)).getD (off % 32) 0 else Memory.read s.okm off := by
  obtain ⟨t, ht, hokm, hframe⟩ := hkdf_writes k h hL
  refine ⟨t, ht, hframe, hokm ▸ wf_memWrite _ 0 hm, fun off => ?_⟩
  rw [hokm, read_memWrite off _ 0 hm, outputKeyingMaterial_length]
  simp only [Nat.zero_le, true_and, Nat.zero_add, Nat.sub_zero]
  exact ite_congr rfl outputKeyingMaterial_getD fun _ => rfl

end

end Sys2Proof.Machine

namespace Sys2Proof.Proofs

open Sys2Proof.Machine Sys2Proof.Spec

/-- Settles O42: the checks in their order, then the output, read byte by byte from its blocks (`hkdf_reads`). -/
theorem hkdfDerivesTheOutput : Obligations.HkdfDerivesTheOutput := by
  refine ⟨decodeWord_encodeInstr .hkdf, fun k s => ⟨hkdf_of_not_fit k, hkdf_of_lt k, hkdf_reads k⟩,
    fun s => ⟨(commandMeaning_default .hkdf s).symm, fun h hL => ?completes⟩⟩
  case completes =>
    obtain ⟨t, ht, -, hframe⟩ := hkdf_writes Config.parameters h hL
    exact ⟨t, ht, hframe⟩

/-- Settles O43: both outputs are read from the same blocks (`hkdf_reads`, `block_okmReq`). -/
theorem hkdfOutputsArePrefixes : Obligations.HkdfOutputsArePrefixes := by
  intro k s L1 L2 h hm hle hL2
  obtain ⟨t1, ht1, hframe1, -, hread1⟩ := hkdf_reads k (s := { s with okmReq := L1 }) h (hle.trans hL2) hm
  obtain ⟨t2, ht2, hframe2, -, hread2⟩ := hkdf_reads k (s := { s with okmReq := L2 }) h hL2 hm
  refine ⟨t1, t2, ht1, ht2, congrArg State.okmLen hframe1, congrArg State.okmLen hframe2, fun off hoff => ?_⟩
  rw [hread1, hread2, if_pos hoff, if_pos (hoff.trans_le hle), block_okmReq s L1, block_okmReq s L2]

end Sys2Proof.Proofs
end

section
/-! O17. `STATUS.FATAL`: while it is set a write of `CMD` is ignored, and no access but reset reaches the status. -/

namespace Sys2Proof.Machine

/-- While `STATUS.FATAL` is set, no register write starts a command: that of `CMD` is ignored (R210), and no other could. -/
theorem hostWriteReg_running_of_fatal {s : State} (h : s.fatal = true) (sel : BitVec 8) (v : Word256) :
    (hostWriteReg s sel v).running = s.running := by
  by_cases hsel : sel = HostReg.cmd.select
  · have hissue : ∀ w, (s.issue w).running = s.running := fun w => by rw [State.issue, if_pos h]
    rw [hsel, hostWriteReg_select]
    exact State.write32_running hissue v
  · exact hostWriteReg_running s hsel v

/-- While `STATUS.FATAL` is set, no access but reset changes what runs (R210). -/
theorem hostWhenIdle_running_of_fatal (k : Parameters) {s : State} (h : s.fatal = true) {op : HostOp} (hop : op ≠ .reset) :
    (hostWhenIdle k s op).running = s.running := by
  cases op with
  | reset => exact absurd rfl hop
  | readReg | readBuf => rfl
  | writeReg sel v => exact hostWriteReg_running_of_fatal h sel v
  | writeBuf sel off v =>
    obtain he | ⟨b, -, he⟩ := hostWriteBuf_cases k.capacities s sel off v <;> rw [hostWhenIdle, he]
    exact State.setBuf_running _ _ _

/-- No access but reset changes the status flags or the error (R30, R31). -/
theorem hostWhenIdle_status (k : Parameters) (s : State) {op : HostOp} (hop : op ≠ .reset) :
    (hostWhenIdle k s op).fatal = s.fatal ∧ (hostWhenIdle k s op).error = s.error ∧ (hostWhenIdle k s op).err = s.err := by
  cases op with
  | reset => exact absurd rfl hop
  | readReg | readBuf => exact ⟨rfl, rfl, rfl⟩
  | writeReg sel v =>
    rw [hostWhenIdle, hostWriteReg_frame s sel v]
    exact ⟨rfl, rfl, rfl⟩
  | writeBuf sel off v =>
    obtain he | ⟨b, -, he⟩ := hostWriteBuf_cases k.capacities s sel off v <;> rw [hostWhenIdle, he]
    · exact ⟨rfl, rfl, rfl⟩
    · exact ⟨State.setBuf_fatal _ _ _, State.setBuf_error _ _ _, State.setBuf_err _ _ _⟩

end Sys2Proof.Machine

namespace Sys2Proof.Proofs

open Sys2Proof.Machine

/-- Settles O17: reset leaves an idle CORE with the bit clear; no other access changes what runs
(`hostWhenIdle_running_of_fatal`) or the status (`hostWhenIdle_status`). -/
theorem fatalStopsCommandsUntilReset : Obligations.FatalStopsCommandsUntilReset := by
  intro s op wb rest hr hf hin
  refine ⟨_, advance_of_idle Config.parameters hr hin, ?_⟩
  by_cases hop : op = .reset
  · subst hop
    exact ⟨rfl, absurd rfl, fun _ => rfl⟩
  · have hrun := hostWhenIdle_running_of_fatal Config.parameters (s := { s with hostIn := rest }) hf hop
    obtain ⟨hfatal, hstatus⟩ := hostWhenIdle_status Config.parameters { s with hostIn := rest } hop
    exact ⟨hrun.trans hr, fun _ => ⟨hfatal.trans hf, hstatus⟩, fun h => absurd h hop⟩

end Sys2Proof.Proofs
end

section
/-! O7. The command words listed in `95_test_vectors.md` 2.1, through the encoder. -/

namespace Sys2Proof

/-- The encoder's words are the words that decode, each to the command it is made of (O5, O6). -/
theorem decodeWord_eq_ok_iff {w : Word32} {i : Instr} : decodeWord w = .ok i ↔ encodeInstr i = w :=
  ⟨encodeInstr_of_decodeWord, fun h => h ▸ decodeWord_encodeInstr i⟩

end Sys2Proof

namespace Sys2Proof.Proofs

/-- Settles O7: each listed word is the one the encoder makes of the command beside it. -/
theorem listedWordsDecode : Obligations.ListedWordsDecode := by
  simp only [Obligations.ListedWordsDecode, decodeWord_eq_ok_iff]
  decide

end Sys2Proof.Proofs
end
